-- ==== Sys2Proof/Word.lean ====
section
/-! DEFINITION. The word types of the block: every value the spec treats as bits (00_scope.md R14, R8). -/

namespace Sys2Proof

/-- A byte, bits numbered 7 down to 0 (R14). -/
abbrev Byte := BitVec 8

/-- A channel, the low four bits of a channel command (R61). -/
abbrev Nibble := BitVec 4

/-- The seven data bits of a data byte, and one half of a pair (R63, R121). -/
abbrev Septet := BitVec 7

/-- A payload value as the caller hands it to the encoder: `VALUE_WIDTH = 16` bits (R8). -/
abbrev Word16 := BitVec 16

/-- A payload value as it travels: 14 bits (R67). -/
abbrev Value14 := BitVec 14

end Sys2Proof
end

