-- ==== Sys2Proof/Config.lean ====
section
/-! DEFINITION. The parameters of the block (00_scope.md R5 to R9). -/

namespace Sys2Proof

namespace Config

/-- The number of cells of the accumulation buffer (R5). -/
def capacity : Nat := 32

/-- `START_SYSEX` (R6). -/
def startSysexByte : Byte := 0xF0#8

/-- `END_SYSEX` (R6). -/
def endSysexByte : Byte := 0xF7#8

/-- `SYSTEM_RESET` (R6). -/
def systemResetByte : Byte := 0xFF#8

/-- The data-byte limit: a byte below it is a data byte (R6). -/
def dataLimit : Byte := 128#8

/-- The channel-command limit: a byte below it has a channel (R6). -/
def channelLimit : Byte := 0xF0#8

/-- The arming table `MB_LEN`, as the list of its entries that are not zero; a command that is not
listed has 0, and the first entry of a command counts. A count is at most `capacity` by its type
(R7; entry 3). -/
abbrev MbTable := List (Byte × Fin 33)

/-- The core configuration, the one the source describes: `MB_LEN(c) = 0` for every `c` (R7). -/
def coreTable : MbTable := []

end Config

/-- The identity of a handler (R9). DESIGN CHOICE (entry 4): the spec's opaque, non-empty type is a
wrapped natural number, so that states can be compared; no rule looks inside. -/
structure HandlerId where
  /-- The host's own number for the handler. -/
  id : Nat
deriving DecidableEq, Repr

end Sys2Proof
end

