-- ==== Sys2Proof/Syntax.lean ====
section
/-! DEFINITION. The operations the host can ask for, and the instructions: one constructor for each row
of spec/opcode_table.json. -/

namespace Sys2Proof

/-- The parser's control state, which is the decoding context (10_state.md R20, 30_encoding.md R64). -/
inductive Mode where
  | idle
  | awaitMB
  | inSysex
deriving DecidableEq, Repr

/-- The two callback categories; there is no third (R12, R145). -/
inductive Category where
  | systemReset
  | sysex
deriving DecidableEq, Repr

/-- The five operations (R12). -/
inductive Op where
  /-- `process_byte(b)`: one received byte. -/
  | rx (b : Byte)
  /-- `reset()`: the external reset call. -/
  | reset
  /-- `attach(category, handler)`. -/
  | attach (cat : Category) (h : HandlerId)
  /-- `detach(category)`. -/
  | detach (cat : Category)
  /-- `send_sysex(command, values)`. -/
  | sendSysex (cmd : Byte) (vals : List Word16)
deriving DecidableEq, Repr

/-- What the host can hand to the block: one of the five operations, one of the two pseudo-operations
(R72), or a combinational function or procedure to evaluate (R73). DESIGN CHOICE (entry 6): the
pseudo-operations and the functions are requests of their own, so that every row of the opcode table
can be reached by a step. -/
inductive Request where
  | op (o : Op)
  | onSystemReset (h : HandlerId)
  | onSysex (h : HandlerId)
  | classify (b : Byte)
  | isData (b : Byte)
  | enc7 (v : Word16)
  | dec7 (lsb msb : Septet)
  | decodePayload (data : List Byte)
  | doReset
deriving DecidableEq, Repr

/-- The instructions, one for each row of spec/opcode_table.json, in the table's order. -/
inductive Instr where
  /-- Row 1 of Table 30-D (R92). -/
  | sxReset
  /-- Row 2 (R93). -/
  | sxEnd
  /-- Row 3 (R94). -/
  | sxEndEmpty
  /-- Row 4 (R95). -/
  | sxData (b : Byte)
  /-- Row 5 (R96). -/
  | sxDataOvf (b : Byte)
  /-- Row 6 (R97). -/
  | mbData (d : Septet)
  /-- Row 7 (R98). -/
  | mbDataLast (d : Septet)
  /-- Row 8 (R99). -/
  | startSysex
  /-- Row 9 (R100). -/
  | systemReset
  /-- Row 10 (R103). -/
  | arm (b : Byte)
  /-- Row 11, the fifteen channel commands (R101). -/
  | cmd00 (channel : Nibble)
  | cmd10 (channel : Nibble)
  | cmd20 (channel : Nibble)
  | cmd30 (channel : Nibble)
  | cmd40 (channel : Nibble)
  | cmd50 (channel : Nibble)
  | cmd60 (channel : Nibble)
  | cmd70 (channel : Nibble)
  | cmd80 (channel : Nibble)
  | cmd90 (channel : Nibble)
  | cmdA0 (channel : Nibble)
  | cmdB0 (channel : Nibble)
  | cmdC0 (channel : Nibble)
  | cmdD0 (channel : Nibble)
  | cmdE0 (channel : Nibble)
  /-- Row 12, the fourteen ignored system bytes (R102). -/
  | sysF1
  | sysF2
  | sysF3
  | sysF4
  | sysF5
  | sysF6
  | sysF7
  | sysF8
  | sysF9
  | sysFA
  | sysFB
  | sysFC
  | sysFD
  | sysFE
  /-- The host operation `Reset` (R151). -/
  | reset
  /-- `Attach(cat, h)` (R140). -/
  | attach (cat : Category) (h : HandlerId)
  /-- `Detach(cat)` (R141). -/
  | detach (cat : Category)
  /-- `SendSysex(cmd, vals)` with `cmd < 128` (R124). -/
  | sendSysex (cmd : Byte) (vals : List Word16)
  /-- `SendSysex(cmd, vals)` with `cmd >= 128` (R125). -/
  | sendSysexBad (cmd : Byte) (vals : List Word16)
  /-- The pseudo-operation `on_system_reset(h)` (R144). -/
  | onSystemReset (h : HandlerId)
  /-- The pseudo-operation `on_sysex(h)` (R144). -/
  | onSysex (h : HandlerId)
  /-- The combinational function `classify` (R80). -/
  | classify (b : Byte)
  /-- The combinational function `is_data` (R83). -/
  | isData (b : Byte)
  /-- The combinational function `enc7` (R120). -/
  | enc7 (v : Word16)
  /-- The combinational function `dec7` (R121). -/
  | dec7 (lsb msb : Septet)
  /-- The payload helper `decode_payload` (R128). -/
  | decodePayload (data : List Byte)
  /-- The procedure `do_reset` (R150). -/
  | doReset
deriving DecidableEq, Repr

/-- What decoding a byte depends on besides the byte: the mode, the two counters that the conditions of
Table 30-D test, and the arming table (R64). -/
structure DecodeCtx where
  mode : Mode
  count : Nat
  remaining : Nat
  mbLen : Config.MbTable
deriving DecidableEq, Repr

end Sys2Proof
end

