-- ==== Sys2Proof/Machine/Operands.lean ====
section
/-! DEFINITION. The combinational functions of the block: the byte classifier (40_classifier.md), the
arming table's lookup (00_scope.md R7), the assembly of a byte from its fields (30_encoding.md R61 to
R63) and the 7-bit pair codec (42_codec.md). -/

namespace Sys2Proof.Machine

/-- The result of `classify`: a command, and a channel where there is one (R80). -/
structure Classified where
  command : Byte
  channel : Option Nibble
deriving DecidableEq, Repr

/-- `classify(b)` (R80). -/
def classify (b : Byte) : Classified :=
  if b < Config.channelLimit then
    { command := b &&& 0xF0#8, channel := some ((b &&& 0x0F#8).setWidth 4) }
  else
    { command := b, channel := none }

/-- `is_data(b)`: `b < 128` (R83). -/
def isData (b : Byte) : Bool := decide (b < Config.dataLimit)

/-- `MB_LEN(c)`: the first entry of `c`, else 0 (R7). -/
def mbLenOf : Config.MbTable → Byte → Nat
  | [], _ => 0
  | (k, n) :: rest, c => if k = c then n.val else mbLenOf rest c

/-- How many data bytes the byte `b` arms: `MB_LEN(classify(b).command)` (R98, R103). -/
def armedLength (t : Config.MbTable) (b : Byte) : Nat := mbLenOf t (classify b).command

/-- A channel command's byte from `cmd_hi` and `channel` (Table 30-A, R61). -/
def channelByte (hi : Nibble) (channel : Nibble) : Byte := hi ++ channel

/-- A system byte from `sel` (Table 30-B, R62). -/
def systemByte (sel : Nibble) : Byte := 0xF#4 ++ sel

/-- A data byte from its seven data bits (Table 30-C, R63). -/
def dataByte (d : Septet) : Byte := d.setWidth 8

/-- `enc7(v)`: the pair `(lsb, msb)`, low seven bits first (R120, R42). -/
def enc7 (v : Word16) : Byte × Byte :=
  ((v &&& 0x7F#16).setWidth 8, ((v >>> 7) &&& 0x7F#16).setWidth 8)

/-- `dec7(lsb, msb)`, computed in 14 bits (R121, R133). -/
def dec7 (lsb msb : Septet) : Value14 := (msb.setWidth 14 <<< 7) ||| lsb.setWidth 14

/-- `decode_payload(data)`: `dec7` over consecutive pairs from offset 0 (R128); `none` where it is not
defined, on an odd length or a byte of 128 or above (R129). -/
def decodePayload : List Byte → Option (List Value14)
  | [] => some []
  | [_] => none
  | lsb :: msb :: rest =>
    if isData lsb && isData msb then
      (decodePayload rest).map (fun vs => dec7 (lsb.setWidth 7) (msb.setWidth 7) :: vs)
    else none

/-- The pair bytes of a list of values, in order (R124). -/
def encodeValues : List Word16 → List Byte
  | [] => []
  | v :: vs => (enc7 v).1 :: (enc7 v).2 :: encodeValues vs

/-- The bytes of a sysex frame: the start marker, the sub-command as one raw byte, the pairs, the end
marker (R66, R124). -/
def frameBytes (cmd : Byte) (vals : List Word16) : List Byte :=
  Config.startSysexByte :: cmd :: (encodeValues vals ++ [Config.endSysexByte])

end Sys2Proof.Machine
end

