-- ==== Sys2Proof/WellFormed.lean ====
section
/-! DEFINITION. Which instructions are well-formed: the operand lies in the row's range (Table 30-D,
42_codec.md R124, R125, R128). -/

namespace Sys2Proof

/-- A byte that a frame stores: any but `0xF7` and `0xFF` (R95, R96). -/
def framePayloadByte (b : Byte) : Bool :=
  b != Config.endSysexByte && b != Config.systemResetByte

/-- A byte that can arm: any but `0xF0` and `0xFF`, whose `MB_LEN` is never consulted (R7, R103). -/
def armingByte (b : Byte) : Bool :=
  b != Config.startSysexByte && b != Config.systemResetByte

/-- The operands lie in the row's range. A row without a condition on its operand holds it by type. -/
def Instr.WellFormed : Instr → Bool
  | .sxReset => true
  | .sxEnd => true
  | .sxEndEmpty => true
  | .sxData b => framePayloadByte b
  | .sxDataOvf b => framePayloadByte b
  | .mbData _ => true
  | .mbDataLast _ => true
  | .startSysex => true
  | .systemReset => true
  | .arm b => armingByte b
  | .cmd00 _ => true
  | .cmd10 _ => true
  | .cmd20 _ => true
  | .cmd30 _ => true
  | .cmd40 _ => true
  | .cmd50 _ => true
  | .cmd60 _ => true
  | .cmd70 _ => true
  | .cmd80 _ => true
  | .cmd90 _ => true
  | .cmdA0 _ => true
  | .cmdB0 _ => true
  | .cmdC0 _ => true
  | .cmdD0 _ => true
  | .cmdE0 _ => true
  | .sysF1 => true
  | .sysF2 => true
  | .sysF3 => true
  | .sysF4 => true
  | .sysF5 => true
  | .sysF6 => true
  | .sysF7 => true
  | .sysF8 => true
  | .sysF9 => true
  | .sysFA => true
  | .sysFB => true
  | .sysFC => true
  | .sysFD => true
  | .sysFE => true
  | .reset => true
  | .attach _ _ => true
  | .detach _ => true
  | .sendSysex cmd _ => Machine.isData cmd
  | .sendSysexBad cmd _ => !Machine.isData cmd
  | .onSystemReset _ => true
  | .onSysex _ => true
  | .classify _ => true
  | .isData _ => true
  | .enc7 _ => true
  | .dec7 _ _ => true
  | .decodePayload data => (Machine.decodePayload data).isSome
  | .doReset => true

end Sys2Proof
end

