-- ==== Sys2Proof/Machine/Flags.lean ====
section
/-! DEFINITION. The conditions the block tests. It has no status flag, condition code or sticky error bit
(10_state.md R30); what stands here are the tests that select a row: the context column of Table 30-D
(30_encoding.md R64), each over the decoding context. -/

namespace Sys2Proof.Machine

/-- Row 1: in a frame, whatever `count` is (R92). -/
def inFrame (c : DecodeCtx) : Bool := decide (c.mode = .inSysex)

/-- Row 2: in a frame that holds at least the sub-command (R93). -/
def frameNotEmpty (c : DecodeCtx) : Bool := inFrame c && decide (1 ≤ c.count)

/-- Row 3: in a frame that holds nothing (R94). -/
def frameEmpty (c : DecodeCtx) : Bool := inFrame c && decide (c.count = 0)

/-- Row 4: in a frame with room for one more byte (R95). -/
def frameHasRoom (c : DecodeCtx) : Bool := inFrame c && decide (c.count < Config.capacity)

/-- Row 5: in a frame that fills the buffer (R96). -/
def frameFull (c : DecodeCtx) : Bool := inFrame c && decide (c.count = Config.capacity)

/-- Row 6: in a multi-byte wait, not for the last byte (R97). -/
def awaitsMore (c : DecodeCtx) : Bool := decide (c.mode = .awaitMB) && decide (1 < c.remaining)

/-- Row 7: in a multi-byte wait for the last byte (R98). -/
def awaitsLast (c : DecodeCtx) : Bool := decide (c.mode = .awaitMB) && decide (c.remaining = 1)

/-- Rows 8 to 12: the byte is in command position (R64). -/
def commandPosition (c : DecodeCtx) (b : Byte) : Bool :=
  decide (c.mode = .idle) || (decide (c.mode = .awaitMB) && !isData b)

/-- Row 10: a command-position byte whose command arms (R103). -/
def armsWait (c : DecodeCtx) (b : Byte) : Bool :=
  commandPosition c b && decide (0 < armedLength c.mbLen b)

/-- Rows 11 and 12: a command-position byte whose command arms nothing (R101, R102). -/
def ignoredHere (c : DecodeCtx) (b : Byte) : Bool :=
  commandPosition c b && decide (armedLength c.mbLen b = 0)

/-- Table 30-D's condition on the context, for every row; a host or function row has none (R73). Together
with `Instr.WellFormed`, the condition on the operand, it says when a row is performed. -/
def rowContext (c : DecodeCtx) : Instr → Bool
  | .sxReset => inFrame c
  | .sxEnd => frameNotEmpty c
  | .sxEndEmpty => frameEmpty c
  | .sxData _ => frameHasRoom c
  | .sxDataOvf _ => frameFull c
  | .mbData _ => awaitsMore c
  | .mbDataLast _ => awaitsLast c
  | .startSysex => commandPosition c Config.startSysexByte
  | .systemReset => commandPosition c Config.systemResetByte
  | .arm b => armsWait c b
  | .cmd00 ch => ignoredHere c (channelByte 0x0#4 ch)
  | .cmd10 ch => ignoredHere c (channelByte 0x1#4 ch)
  | .cmd20 ch => ignoredHere c (channelByte 0x2#4 ch)
  | .cmd30 ch => ignoredHere c (channelByte 0x3#4 ch)
  | .cmd40 ch => ignoredHere c (channelByte 0x4#4 ch)
  | .cmd50 ch => ignoredHere c (channelByte 0x5#4 ch)
  | .cmd60 ch => ignoredHere c (channelByte 0x6#4 ch)
  | .cmd70 ch => ignoredHere c (channelByte 0x7#4 ch)
  | .cmd80 ch => ignoredHere c (channelByte 0x8#4 ch)
  | .cmd90 ch => ignoredHere c (channelByte 0x9#4 ch)
  | .cmdA0 ch => ignoredHere c (channelByte 0xA#4 ch)
  | .cmdB0 ch => ignoredHere c (channelByte 0xB#4 ch)
  | .cmdC0 ch => ignoredHere c (channelByte 0xC#4 ch)
  | .cmdD0 ch => ignoredHere c (channelByte 0xD#4 ch)
  | .cmdE0 ch => ignoredHere c (channelByte 0xE#4 ch)
  | .sysF1 => ignoredHere c (systemByte 0x1#4)
  | .sysF2 => ignoredHere c (systemByte 0x2#4)
  | .sysF3 => ignoredHere c (systemByte 0x3#4)
  | .sysF4 => ignoredHere c (systemByte 0x4#4)
  | .sysF5 => ignoredHere c (systemByte 0x5#4)
  | .sysF6 => ignoredHere c (systemByte 0x6#4)
  | .sysF7 => ignoredHere c (systemByte 0x7#4)
  | .sysF8 => ignoredHere c (systemByte 0x8#4)
  | .sysF9 => ignoredHere c (systemByte 0x9#4)
  | .sysFA => ignoredHere c (systemByte 0xA#4)
  | .sysFB => ignoredHere c (systemByte 0xB#4)
  | .sysFC => ignoredHere c (systemByte 0xC#4)
  | .sysFD => ignoredHere c (systemByte 0xD#4)
  | .sysFE => ignoredHere c (systemByte 0xE#4)
  | .reset => true
  | .attach _ _ => true
  | .detach _ => true
  | .sendSysex _ _ => true
  | .sendSysexBad _ _ => true
  | .onSystemReset _ => true
  | .onSysex _ => true
  | .classify _ => true
  | .isData _ => true
  | .enc7 _ => true
  | .dec7 _ _ => true
  | .decodePayload _ => true
  | .doReset => true

end Sys2Proof.Machine
end

