-- ==== Sys2Proof/Machine/State.lean ====
section
/-! DEFINITION. The state of one engine instance (10_state.md), the events it emits (00_scope.md R13), the
reasons a step can stop, and the state after reset. -/

namespace Sys2Proof.Machine

/-- The accumulation buffer `BUF` as a list of (index, byte) pairs, indices strictly rising, no entry
equal to what an unlisted cell reads as (R23, R40, R48; entry 10). -/
abbrev Memory := List Host.Cell

/-- The seven events (R13). An event carries copies of the values it names. -/
inductive Event where
  /-- The sysex callback with the handler read from the slot and the handler's three arguments (R143). -/
  | sysexCallback (h : HandlerId) (sub : Byte) (len : Nat) (data : List Byte)
  /-- The reset callback (R143). -/
  | resetCallback (h : HandlerId)
  /-- The completion of a multi-byte wait, the extension point (R98). -/
  | multiByteComplete (armed : Byte) (data : List Byte)
  /-- The condition `Overflow` (R161). -/
  | overflow
  /-- The condition `EmptyFrame` (R162). -/
  | emptyFrame
  /-- The condition `TxBadCommand(cmd)` (R163). -/
  | txBadCommand (cmd : Byte)
  /-- One call of the transport's `write(byte)` (R41). -/
  | txByte (b : Byte)
deriving DecidableEq, Repr

/-- The value of a combinational function on the model's result port (R73; entry 5). -/
inductive FuncResult where
  | classified (command : Byte) (channel : Option Nibble)
  | dataTest (r : Bool)
  | pair (lsb msb : Byte)
  | value (v : Value14)
  | values (vs : List Value14)
deriving DecidableEq, Repr

/-- Why the machine stops with a fault. -/
inductive Fault where
  /-- Raised by a load or store of `BUF` at an index of 32 or more, which the spec says does not exist
  (R48, I4 of R27); no state that satisfies the invariant asks for one. Safe. -/
  | bufIndexOutOfRange (index : Nat)
deriving DecidableEq, Repr

/-- Why the machine refuses. -/
inductive Refusal where
  /-- Raised by `exec` for an instruction that has no meaning yet. Safe. -/
  | notModelled (mnemonic : String)
  /-- Raised by a meaning whose row Table 30-D (or R124, R125) does not select in this state or for this
  operand: the block never performs the row there (R64; entry 7). Safe. -/
  | rowNotSelected
  /-- Raised by `DECODE_PAYLOAD` on an odd length or a byte of 128 or above, which the spec says a model
  refuses (R129, U6; entry 9). Safe. -/
  | payloadNotPairs
  /-- Raised by `step` in a state that violates the invariants I1 to I4, which the spec says a model
  refuses (R27, U13; entry 8). Safe. -/
  | illFormedState
  /-- Raised by `step` where no row of Table 30-D takes the byte; a state that satisfies the invariants
  has none (R107). Safe. -/
  | undecodable
deriving DecidableEq, Repr

/-- The state. The first seven fields are the spec's record (10_state.md), `mbLen` is its configuration
(R7, R11), the last three are the model's own: what the host asks for and what it is given. -/
structure State where
  /-- The control state (R20). -/
  mode : Mode
  /-- The multi-byte data bytes still awaited, `0..32` (R21). -/
  remaining : Nat
  /-- The bytes stored by the open or most recent frame, `0..32` (R22). -/
  count : Nat
  /-- The accumulation buffer (R23). -/
  buf : Memory
  /-- The byte that armed the current multi-byte wait (R24). -/
  armed : Byte
  /-- The reset-callback slot (R25). -/
  slotReset : Option HandlerId
  /-- The sysex-callback slot (R26). -/
  slotSysex : Option HandlerId
  /-- The configuration `MB_LEN`; no instruction writes it (R7; entry 3). -/
  mbLen : Config.MbTable
  /-- The host's pending requests, the next one first (R11, R50; entry 1). -/
  requests : List Request
  /-- The events emitted so far, oldest first; no rule reads it (R13; entry 2). -/
  out : List Event
  /-- The value of the function last evaluated; no rule reads it (R73; entry 5). -/
  result : Option FuncResult
deriving DecidableEq, Repr

/-- A newly constructed instance with the configuration `t` (R190, Table 10-B). -/
def State.constructed (t : Config.MbTable) : State :=
  { mode := .idle, remaining := 0, count := 0, buf := [], armed := 0x00#8,
    slotReset := none, slotSysex := none, mbLen := t, requests := [], out := [], result := none }

/-- The machine right after reset: construction in the core configuration (R35, R190, R7). -/
def State.reset : State := State.constructed Config.coreTable

end Sys2Proof.Machine
end

