-- ==== Sys2Proof/Machine/Ops.lean ====
section
/-! DEFINITION. The shared operations over the buffer, the registers, the slots and the event stream, the two
callback entries, the reset procedure and the state invariant. -/

namespace Sys2Proof.Machine

/-- The outcome of a step or of a meaning. -/
abbrev Result := Host.Outcome State Fault Refusal

/-! ### The buffer -/

/-- What an unlisted cell reads as: the spec's reset contents (Table 10-B; entry 10). -/
def Memory.unlisted : Byte := 0x00#8

/-- `buf[i]` (R16). -/
def Memory.read : Memory → Nat → Byte
  | [], _ => Memory.unlisted
  | (k, v) :: rest, i => if k = i then v else Memory.read rest i

/-- The memory `rest` with the cell `i` holding `b` in front, where every index of `rest` is above `i`. -/
def Memory.cons (i : Nat) (b : Byte) (rest : Memory) : Memory :=
  if b = Memory.unlisted then rest else (i, b) :: rest

/-- `buf[i] <- b`, keeping the canonical form (R16). -/
def Memory.write : Memory → Nat → Byte → Memory
  | [], i, b => Memory.cons i b []
  | (k, v) :: rest, i, b =>
    if i < k then Memory.cons i b ((k, v) :: rest)
    else if i = k then Memory.cons i b rest
    else (k, v) :: Memory.write rest i b

/-- Indices rise from `lo` on, stay below `capacity`, and no entry equals what an unlisted cell reads as. -/
def Memory.wfFrom : Nat → Memory → Bool
  | _, [] => true
  | lo, (k, v) :: rest =>
    decide (lo ≤ k) && decide (k < Config.capacity) && (v != Memory.unlisted) && Memory.wfFrom (k + 1) rest

/-- The canonical form of the buffer. -/
def Memory.wf (m : Memory) : Bool := Memory.wfFrom 0 m

/-- All 32 cells zero (R150). -/
def Memory.zeroed : Memory := []

/-- `buf[lo..hi)` (R15). -/
def Memory.slice (m : Memory) (lo hi : Nat) : List Byte :=
  (List.range' lo (hi - lo)).map (Memory.read m)

/-- `buf[i]`. -/
def State.cell (s : State) (i : Nat) : Byte := s.buf.read i

/-- Store `b` at index `i`, then go on; an index of 32 or more does not exist (R48). -/
def State.store (s : State) (i : Nat) (b : Byte) (k : State → Result) : Result :=
  if i < Config.capacity then k { s with buf := s.buf.write i b }
  else .fault (.bufIndexOutOfRange i)

/-- Load `buf[lo..hi)`, then go on; an index of 32 or more does not exist (R48, R105). -/
def State.load (s : State) (lo hi : Nat) (k : List Byte → Result) : Result :=
  if hi ≤ Config.capacity then k (s.buf.slice lo hi)
  else .fault (.bufIndexOutOfRange (hi - 1))

/-! ### Registers, events, the result port -/

/-- The decoding context of a state (R64). -/
def State.ctx (s : State) : DecodeCtx :=
  { mode := s.mode, count := s.count, remaining := s.remaining, mbLen := s.mbLen }

/-- `emit E`: append an event to the step's events (R16). -/
def State.emit (s : State) (e : Event) : State := { s with out := s.out ++ [e] }

/-- One `TxByte` for each byte, in order (R124, R51). -/
def State.transmit (s : State) (bs : List Byte) : State := { s with out := s.out ++ bs.map .txByte }

/-- Put a function's value on the result port (entry 5). -/
def State.answer (s : State) (r : FuncResult) : State := { s with result := some r }

/-- Write one slot (R140, R141). -/
def State.setSlot (s : State) (cat : Category) (v : Option HandlerId) : State :=
  match cat with
  | .systemReset => { s with slotReset := v }
  | .sysex => { s with slotSysex := v }

/-! ### Callback entry, and reset

A dispatch is the block's counterpart of taking an exception: control leaves the block with the event's
arguments. Nothing is saved, masked or switched on entry (R169, R170), so the return restores nothing
(R172) and needs no operation. -/

/-- The events of a reset: the reset callback if the slot is occupied (R142, R150). -/
def resetEvents (slot : Option HandlerId) : List Event :=
  match slot with
  | some h => [.resetCallback h]
  | none => []

/-- `do_reset()`: every parser register and cell is cleared, and only then is the callback made; the slots
are read, not written (R150). -/
def State.doReset (s : State) : State :=
  { s with
    mode := .idle, remaining := 0, armed := 0x00#8, buf := Memory.zeroed, count := 0,
    out := s.out ++ resetEvents s.slotReset }

/-- Entry to the sysex handler with `(buf[0], count - 1, buf[1..count))`; an empty slot makes it a no-op
(R93, R142, R169). -/
def State.dispatchSysex (s : State) : Result :=
  match s.slotSysex with
  | some h =>
    s.load 1 s.count fun data => .next (s.emit (.sysexCallback h (s.cell 0) (s.count - 1) data))
  | none => .next s

/-! ### Rows -/

/-- Perform a row where Table 30-D selects it; elsewhere the block does not (R64; entry 7). -/
def select (selected : Bool) (r : Result) : Result :=
  if selected then r else .refused .rowNotSelected

/-- An ignored byte: no state change, no event (R69, R101, R102). -/
def ignoreByte (s : State) (b : Byte) : Result := select (ignoredHere s.ctx b) (.next s)

/-! ### The invariant -/

/-- I1: a multi-byte wait awaits at least one byte and no more than its command armed (R27). -/
abbrev State.InvAwait (s : State) : Prop :=
  s.mode = .awaitMB →
    1 ≤ s.remaining ∧ s.remaining ≤ Config.capacity ∧ s.remaining ≤ armedLength s.mbLen s.armed

/-- I2: outside a wait nothing is awaited or armed (R27). -/
abbrev State.InvNoAwait (s : State) : Prop :=
  s.mode ≠ .awaitMB → s.remaining = 0 ∧ s.armed = 0x00#8

/-- The invariants I1 to I4 of R27; I4 shows in the state as a buffer with indices below 32 only, which
`Memory.wf` says together with the list's canonical form. -/
abbrev State.Inv (s : State) : Prop :=
  s.InvAwait ∧ s.InvNoAwait ∧ s.count ≤ Config.capacity ∧ s.buf.wf = true

end Sys2Proof.Machine
end

