-- ==== Sys2Proof/Machine/Classifier.lean ====
section
/-! DEFINITION. The meanings of the classifier's function rows (40_classifier.md). -/

namespace Sys2Proof.Machine

/-- `CLASSIFY b`: the command and the channel on the result port; no register is written (R80). -/
def execClassify (b : Byte) (s : State) : Result :=
  .next (s.answer (.classified (classify b).command (classify b).channel))

/-- `IS_DATA b`: the test's value on the result port; no register is written (R83). -/
def execIsData (b : Byte) (s : State) : Result :=
  .next (s.answer (.dataTest (isData b)))

end Sys2Proof.Machine
end

