-- ==== Sys2Proof/Machine/Codec.lean ====
section
/-! DEFINITION. The meanings of the message encoder and of the codec's function rows (42_codec.md). -/

namespace Sys2Proof.Machine

/-- `SEND_SYSEX cmd vals`: the whole frame, byte by byte; no register is read or written (R124, R127). -/
def execSendSysex (cmd : Byte) (vals : List Word16) (s : State) : Result :=
  select (isData cmd) (.next (s.transmit (frameBytes cmd vals)))

/-- `SEND_SYSEX_BAD cmd vals`: nothing is transmitted, the command is reported (R125, R163). -/
def execSendSysexBad (cmd : Byte) (_vals : List Word16) (s : State) : Result :=
  select (!isData cmd) (.next (s.emit (.txBadCommand cmd)))

/-- `ENC7 v`: the pair on the result port (R120). -/
def execEnc7 (v : Word16) (s : State) : Result :=
  .next (s.answer (.pair (enc7 v).1 (enc7 v).2))

/-- `DEC7 lsb msb`: the value on the result port (R121). -/
def execDec7 (lsb msb : Septet) (s : State) : Result :=
  .next (s.answer (.value (dec7 lsb msb)))

/-- `DECODE_PAYLOAD data`: the values on the result port (R128); a payload that is no sequence of pairs is
refused (R129; entry 9). -/
def execDecodePayload (data : List Byte) (s : State) : Result :=
  match decodePayload data with
  | some vs => .next (s.answer (.values vs))
  | none => .refused .payloadNotPairs

end Sys2Proof.Machine
end

