-- ==== Sys2Proof/Machine/Command.lean ====
section
/-! DEFINITION. The meanings of the command-position rows (41_parser.md section 4). -/

namespace Sys2Proof.Machine

/-- `START_SYSEX`: open a frame; a multi-byte wait is abandoned (R99). -/
def execStartSysex (s : State) : Result :=
  select (commandPosition s.ctx Config.startSysexByte)
    (.next { s with mode := .inSysex, count := 0, remaining := 0, armed := 0x00#8 })

/-- `SYSTEM_RESET` (R100). -/
def execSystemReset (s : State) : Result :=
  select (commandPosition s.ctx Config.systemResetByte) (.next s.doReset)

/-- `ARM b`: await `MB_LEN` data bytes; an earlier wait is replaced (R103). -/
def execArm (b : Byte) (s : State) : Result :=
  select (armsWait s.ctx b && armingByte b)
    (.next { s with mode := .awaitMB, remaining := armedLength s.mbLen b, armed := b })

/-- `CMD_00`: accepted and ignored; the channel is not used (R101). -/
def execCmd00 (channel : Nibble) (s : State) : Result := ignoreByte s (channelByte 0x0#4 channel)

/-- `CMD_10`: accepted and ignored; the channel is not used (R101). -/
def execCmd10 (channel : Nibble) (s : State) : Result := ignoreByte s (channelByte 0x1#4 channel)

/-- `CMD_20`: accepted and ignored; the channel is not used (R101). -/
def execCmd20 (channel : Nibble) (s : State) : Result := ignoreByte s (channelByte 0x2#4 channel)

/-- `CMD_30`: accepted and ignored; the channel is not used (R101). -/
def execCmd30 (channel : Nibble) (s : State) : Result := ignoreByte s (channelByte 0x3#4 channel)

/-- `CMD_40`: accepted and ignored; the channel is not used (R101). -/
def execCmd40 (channel : Nibble) (s : State) : Result := ignoreByte s (channelByte 0x4#4 channel)

/-- `CMD_50`: accepted and ignored; the channel is not used (R101). -/
def execCmd50 (channel : Nibble) (s : State) : Result := ignoreByte s (channelByte 0x5#4 channel)

/-- `CMD_60`: accepted and ignored; the channel is not used (R101). -/
def execCmd60 (channel : Nibble) (s : State) : Result := ignoreByte s (channelByte 0x6#4 channel)

/-- `CMD_70`: accepted and ignored; the channel is not used (R101). -/
def execCmd70 (channel : Nibble) (s : State) : Result := ignoreByte s (channelByte 0x7#4 channel)

/-- `CMD_80`: accepted and ignored; the channel is not used (R101). -/
def execCmd80 (channel : Nibble) (s : State) : Result := ignoreByte s (channelByte 0x8#4 channel)

/-- `CMD_90`: accepted and ignored; the channel is not used (R101). -/
def execCmd90 (channel : Nibble) (s : State) : Result := ignoreByte s (channelByte 0x9#4 channel)

/-- `CMD_A0`: accepted and ignored; the channel is not used (R101). -/
def execCmdA0 (channel : Nibble) (s : State) : Result := ignoreByte s (channelByte 0xA#4 channel)

/-- `CMD_B0`: accepted and ignored; the channel is not used (R101). -/
def execCmdB0 (channel : Nibble) (s : State) : Result := ignoreByte s (channelByte 0xB#4 channel)

/-- `CMD_C0`: accepted and ignored; the channel is not used (R101). -/
def execCmdC0 (channel : Nibble) (s : State) : Result := ignoreByte s (channelByte 0xC#4 channel)

/-- `CMD_D0`: accepted and ignored; the channel is not used (R101). -/
def execCmdD0 (channel : Nibble) (s : State) : Result := ignoreByte s (channelByte 0xD#4 channel)

/-- `CMD_E0`: accepted and ignored; the channel is not used (R101). -/
def execCmdE0 (channel : Nibble) (s : State) : Result := ignoreByte s (channelByte 0xE#4 channel)

/-- `SYS_F1`: accepted and ignored (R102). -/
def execSysF1 (s : State) : Result := ignoreByte s (systemByte 0x1#4)

/-- `SYS_F2`: accepted and ignored (R102). -/
def execSysF2 (s : State) : Result := ignoreByte s (systemByte 0x2#4)

/-- `SYS_F3`: accepted and ignored (R102). -/
def execSysF3 (s : State) : Result := ignoreByte s (systemByte 0x3#4)

/-- `SYS_F4`: accepted and ignored (R102). -/
def execSysF4 (s : State) : Result := ignoreByte s (systemByte 0x4#4)

/-- `SYS_F5`: accepted and ignored (R102). -/
def execSysF5 (s : State) : Result := ignoreByte s (systemByte 0x5#4)

/-- `SYS_F6`: accepted and ignored (R102). -/
def execSysF6 (s : State) : Result := ignoreByte s (systemByte 0x6#4)

/-- `SYS_F7`: accepted and ignored (`END_SYSEX` outside a frame) (R102). -/
def execSysF7 (s : State) : Result := ignoreByte s (systemByte 0x7#4)

/-- `SYS_F8`: accepted and ignored (R102). -/
def execSysF8 (s : State) : Result := ignoreByte s (systemByte 0x8#4)

/-- `SYS_F9`: accepted and ignored (R102). -/
def execSysF9 (s : State) : Result := ignoreByte s (systemByte 0x9#4)

/-- `SYS_FA`: accepted and ignored (R102). -/
def execSysFA (s : State) : Result := ignoreByte s (systemByte 0xA#4)

/-- `SYS_FB`: accepted and ignored (R102). -/
def execSysFB (s : State) : Result := ignoreByte s (systemByte 0xB#4)

/-- `SYS_FC`: accepted and ignored (R102). -/
def execSysFC (s : State) : Result := ignoreByte s (systemByte 0xC#4)

/-- `SYS_FD`: accepted and ignored (R102). -/
def execSysFD (s : State) : Result := ignoreByte s (systemByte 0xD#4)

/-- `SYS_FE`: accepted and ignored (R102). -/
def execSysFE (s : State) : Result := ignoreByte s (systemByte 0xE#4)

end Sys2Proof.Machine
end

