-- ==== Sys2Proof/Machine/Parser.lean ====
section
/-! DEFINITION. The meanings of the parser's rows in the modes `InSysex` and `AwaitMB` (41_parser.md sections 2
and 3). -/

namespace Sys2Proof.Machine

/-- `SX_RESET` (R92). -/
def execSxReset (s : State) : Result :=
  select (inFrame s.ctx) (.next s.doReset)

/-- `SX_END`: leave the frame, then dispatch (R93). -/
def execSxEnd (s : State) : Result :=
  select (frameNotEmpty s.ctx) (State.dispatchSysex { s with mode := .idle })

/-- `SX_END_EMPTY`: leave the frame and report it; no callback (R94). -/
def execSxEndEmpty (s : State) : Result :=
  select (frameEmpty s.ctx) (.next (State.emit { s with mode := .idle } .emptyFrame))

/-- `SX_DATA b`: store at `count`, then increment (R95, R105). -/
def execSxData (b : Byte) (s : State) : Result :=
  select (frameHasRoom s.ctx && framePayloadByte b)
    (s.store s.count b fun t => .next { t with count := s.count + 1 })

/-- `SX_DATA_OVF b`: the byte is dropped, `Overflow` is reported, then the full reset runs (R96). -/
def execSxDataOvf (b : Byte) (s : State) : Result :=
  select (frameFull s.ctx && framePayloadByte b) (.next (s.emit .overflow).doReset)

/-- `MB_DATA d`: decrement `remaining`, then store at the decremented index (R97, R105). -/
def execMbData (d : Septet) (s : State) : Result :=
  select (awaitsMore s.ctx)
    (s.store (s.remaining - 1) (dataByte d) fun t => .next { t with remaining := s.remaining - 1 })

/-- `MB_DATA_LAST d`: store at index 0, hand over the `n` bytes with the arming byte, return to `Idle`
(R98). -/
def execMbDataLast (d : Septet) (s : State) : Result :=
  select (awaitsLast s.ctx)
    (s.store 0 (dataByte d) fun t =>
      t.load 0 (armedLength s.mbLen s.armed) fun data =>
        .next (State.emit { t with remaining := 0, mode := .idle, armed := 0x00#8 }
          (.multiByteComplete s.armed data)))

end Sys2Proof.Machine
end

