-- ==== Sys2Proof/Machine/Registry.lean ====
section
/-! DEFINITION. The meanings of the callback registry's rows (43_callback_registry.md). -/

namespace Sys2Proof.Machine

/-- `ATTACH cat h`: the slot holds `h`, whatever it held (R140). -/
def execAttach (cat : Category) (h : HandlerId) (s : State) : Result := .next (s.setSlot cat (some h))

/-- `DETACH cat`: the slot is empty (R141). -/
def execDetach (cat : Category) (s : State) : Result := .next (s.setSlot cat none)

/-- `ON_SYSTEM_RESET h` is `Attach(SystemReset, h)` (R144). -/
def execOnSystemReset (h : HandlerId) (s : State) : Result := .next (s.setSlot .systemReset (some h))

/-- `ON_SYSEX h` is `Attach(Sysex, h)` (R144). -/
def execOnSysex (h : HandlerId) (s : State) : Result := .next (s.setSlot .sysex (some h))

end Sys2Proof.Machine
end

