-- ==== Sys2Proof/Machine/ResetController.lean ====
section
/-! DEFINITION. The meanings of the reset controller's rows (44_reset_controller.md). -/

namespace Sys2Proof.Machine

/-- `RESET`: the host's reset call, in any mode (R151). -/
def execReset (s : State) : Result := .next s.doReset

/-- `DO_RESET`: the reset procedure itself (R150; entry 6). -/
def execDoReset (s : State) : Result := .next s.doReset

end Sys2Proof.Machine
end

