-- ==== Sys2Proof/Machine/Dispatch.lean ====
section
/-! DEFINITION. The dispatch of an instruction to its meaning, one arm for each constructor. -/

namespace Sys2Proof.Machine

def exec (i : Instr) (s : State) : Host.Outcome State Fault Refusal :=
  match i with
  | .sxReset => Sys2Proof.Machine.execSxReset s
  | .sxEnd => Sys2Proof.Machine.execSxEnd s
  | .sxEndEmpty => Sys2Proof.Machine.execSxEndEmpty s
  | .sxData b => Sys2Proof.Machine.execSxData b s
  | .sxDataOvf b => Sys2Proof.Machine.execSxDataOvf b s
  | .mbData d => Sys2Proof.Machine.execMbData d s
  | .mbDataLast d => Sys2Proof.Machine.execMbDataLast d s
  | .startSysex => Sys2Proof.Machine.execStartSysex s
  | .systemReset => Sys2Proof.Machine.execSystemReset s
  | .arm b => Sys2Proof.Machine.execArm b s
  | .cmd00 channel => Sys2Proof.Machine.execCmd00 channel s
  | .cmd10 channel => Sys2Proof.Machine.execCmd10 channel s
  | .cmd20 channel => Sys2Proof.Machine.execCmd20 channel s
  | .cmd30 channel => Sys2Proof.Machine.execCmd30 channel s
  | .cmd40 channel => Sys2Proof.Machine.execCmd40 channel s
  | .cmd50 channel => Sys2Proof.Machine.execCmd50 channel s
  | .cmd60 channel => Sys2Proof.Machine.execCmd60 channel s
  | .cmd70 channel => Sys2Proof.Machine.execCmd70 channel s
  | .cmd80 channel => Sys2Proof.Machine.execCmd80 channel s
  | .cmd90 channel => Sys2Proof.Machine.execCmd90 channel s
  | .cmdA0 channel => Sys2Proof.Machine.execCmdA0 channel s
  | .cmdB0 channel => Sys2Proof.Machine.execCmdB0 channel s
  | .cmdC0 channel => Sys2Proof.Machine.execCmdC0 channel s
  | .cmdD0 channel => Sys2Proof.Machine.execCmdD0 channel s
  | .cmdE0 channel => Sys2Proof.Machine.execCmdE0 channel s
  | .sysF1 => Sys2Proof.Machine.execSysF1 s
  | .sysF2 => Sys2Proof.Machine.execSysF2 s
  | .sysF3 => Sys2Proof.Machine.execSysF3 s
  | .sysF4 => Sys2Proof.Machine.execSysF4 s
  | .sysF5 => Sys2Proof.Machine.execSysF5 s
  | .sysF6 => Sys2Proof.Machine.execSysF6 s
  | .sysF7 => Sys2Proof.Machine.execSysF7 s
  | .sysF8 => Sys2Proof.Machine.execSysF8 s
  | .sysF9 => Sys2Proof.Machine.execSysF9 s
  | .sysFA => Sys2Proof.Machine.execSysFA s
  | .sysFB => Sys2Proof.Machine.execSysFB s
  | .sysFC => Sys2Proof.Machine.execSysFC s
  | .sysFD => Sys2Proof.Machine.execSysFD s
  | .sysFE => Sys2Proof.Machine.execSysFE s
  | .reset => Sys2Proof.Machine.execReset s
  | .attach cat h => Sys2Proof.Machine.execAttach cat h s
  | .detach cat => Sys2Proof.Machine.execDetach cat s
  | .sendSysex cmd vals => Sys2Proof.Machine.execSendSysex cmd vals s
  | .sendSysexBad cmd vals => Sys2Proof.Machine.execSendSysexBad cmd vals s
  | .onSystemReset h => Sys2Proof.Machine.execOnSystemReset h s
  | .onSysex h => Sys2Proof.Machine.execOnSysex h s
  | .classify b => Sys2Proof.Machine.execClassify b s
  | .isData b => Sys2Proof.Machine.execIsData b s
  | .enc7 v => Sys2Proof.Machine.execEnc7 v s
  | .dec7 lsb msb => Sys2Proof.Machine.execDec7 lsb msb s
  | .decodePayload data => Sys2Proof.Machine.execDecodePayload data s
  | .doReset => Sys2Proof.Machine.execDoReset s

end Sys2Proof.Machine
end

