-- ==== Sys2Proof/Decode.lean ====
section
/-! DEFINITION. Decoding a received byte and a request in a context, the encoder, and the opcode table's own
decoder (30_encoding.md). -/

namespace Sys2Proof

/-- Why a byte selects no row. -/
inductive DecodeError where
  /-- Raised by `decodeByte` for a data byte in `AwaitMB` with `remaining = 0`, a context that invariant
  I1 rules out (R27); safe. -/
  | noRow
deriving DecidableEq, Repr

/-- The channel command of `cmd_hi = hi` (R61, R68); the value 15 is none. -/
def channelCommand (hi : Nibble) (channel : Nibble) : Option Instr :=
  match hi.toNat with
  | 0 => some (.cmd00 channel)
  | 1 => some (.cmd10 channel)
  | 2 => some (.cmd20 channel)
  | 3 => some (.cmd30 channel)
  | 4 => some (.cmd40 channel)
  | 5 => some (.cmd50 channel)
  | 6 => some (.cmd60 channel)
  | 7 => some (.cmd70 channel)
  | 8 => some (.cmd80 channel)
  | 9 => some (.cmd90 channel)
  | 10 => some (.cmdA0 channel)
  | 11 => some (.cmdB0 channel)
  | 12 => some (.cmdC0 channel)
  | 13 => some (.cmdD0 channel)
  | 14 => some (.cmdE0 channel)
  | _ => none

/-- The ignored system byte of `sel` (R62, R68); `0xF0` and `0xFF` are none of them. -/
def ignoredSystemByte (sel : Nibble) : Option Instr :=
  match sel.toNat with
  | 1 => some .sysF1
  | 2 => some .sysF2
  | 3 => some .sysF3
  | 4 => some .sysF4
  | 5 => some .sysF5
  | 6 => some .sysF6
  | 7 => some .sysF7
  | 8 => some .sysF8
  | 9 => some .sysF9
  | 10 => some .sysFA
  | 11 => some .sysFB
  | 12 => some .sysFC
  | 13 => some .sysFD
  | 14 => some .sysFE
  | _ => none

/-- The row of a command-position byte that is neither recognised nor arming (R68, rows 11 and 12). -/
def ignoredByte (b : Byte) : Option Instr :=
  match (Machine.classify b).channel with
  | some channel => channelCommand ((b >>> 4).setWidth 4) channel
  | none => ignoredSystemByte (b.setWidth 4)

/-- A byte in command position (Table 30-D rows 8 to 12). -/
def decodeCommandPosition (c : DecodeCtx) (b : Byte) : Except DecodeError Instr :=
  if (Machine.classify b).command = Config.startSysexByte then .ok .startSysex
  else if (Machine.classify b).command = Config.systemResetByte then .ok .systemReset
  else if 0 < Machine.armedLength c.mbLen b then .ok (.arm b)
  else
    match ignoredByte b with
    | some i => .ok i
    | none => .error .noRow

/-- A byte in a frame (Table 30-D rows 1 to 5). The byte `0xFF` is taken before the append
(90_conflicts.md C1). -/
def decodeInFrame (c : DecodeCtx) (b : Byte) : Except DecodeError Instr :=
  if b = Config.systemResetByte then .ok .sxReset
  else if b = Config.endSysexByte then
    if c.count = 0 then .ok .sxEndEmpty else .ok .sxEnd
  else if c.count < Config.capacity then .ok (.sxData b)
  else .ok (.sxDataOvf b)

/-- A data byte in a multi-byte wait (Table 30-D rows 6 and 7). -/
def decodeAwaitData (c : DecodeCtx) (b : Byte) : Except DecodeError Instr :=
  if 1 < c.remaining then .ok (.mbData (b.setWidth 7))
  else if c.remaining = 1 then .ok (.mbDataLast (b.setWidth 7))
  else .error .noRow

/-- `Rx(b)`'s row: first the sysex test, then the multi-byte test, then classification (R64, R84). -/
def decodeByte (c : DecodeCtx) (b : Byte) : Except DecodeError Instr :=
  match c.mode with
  | .inSysex => decodeInFrame c b
  | .awaitMB => if Machine.isData b then decodeAwaitData c b else decodeCommandPosition c b
  | .idle => decodeCommandPosition c b

/-- The row of a request. A host operation has no byte encoding (R73); `SendSysex` selects the refused
row when the command is not a data byte (R124, R125). -/
def decode (c : DecodeCtx) : Request → Except DecodeError Instr
  | .op (.rx b) => decodeByte c b
  | .op .reset => .ok .reset
  | .op (.attach cat h) => .ok (.attach cat h)
  | .op (.detach cat) => .ok (.detach cat)
  | .op (.sendSysex cmd vals) =>
    if Machine.isData cmd then .ok (.sendSysex cmd vals) else .ok (.sendSysexBad cmd vals)
  | .onSystemReset h => .ok (.onSystemReset h)
  | .onSysex h => .ok (.onSysex h)
  | .classify b => .ok (.classify b)
  | .isData b => .ok (.isData b)
  | .enc7 v => .ok (.enc7 v)
  | .dec7 lsb msb => .ok (.dec7 lsb msb)
  | .decodePayload data => .ok (.decodePayload data)
  | .doReset => .ok .doReset

/-- What the host hands to the block for an instruction: `Rx` of the row's byte for a wire row, the
operation, pseudo-operation or function itself for a row without an encoding (R12, R73). -/
def encode : Instr → Request
  | .sxReset => .op (.rx 0xFF#8)
  | .sxEnd => .op (.rx 0xF7#8)
  | .sxEndEmpty => .op (.rx 0xF7#8)
  | .sxData b => .op (.rx b)
  | .sxDataOvf b => .op (.rx b)
  | .mbData d => .op (.rx (Machine.dataByte d))
  | .mbDataLast d => .op (.rx (Machine.dataByte d))
  | .startSysex => .op (.rx 0xF0#8)
  | .systemReset => .op (.rx 0xFF#8)
  | .arm b => .op (.rx b)
  | .cmd00 channel => .op (.rx (Machine.channelByte 0x0#4 channel))
  | .cmd10 channel => .op (.rx (Machine.channelByte 0x1#4 channel))
  | .cmd20 channel => .op (.rx (Machine.channelByte 0x2#4 channel))
  | .cmd30 channel => .op (.rx (Machine.channelByte 0x3#4 channel))
  | .cmd40 channel => .op (.rx (Machine.channelByte 0x4#4 channel))
  | .cmd50 channel => .op (.rx (Machine.channelByte 0x5#4 channel))
  | .cmd60 channel => .op (.rx (Machine.channelByte 0x6#4 channel))
  | .cmd70 channel => .op (.rx (Machine.channelByte 0x7#4 channel))
  | .cmd80 channel => .op (.rx (Machine.channelByte 0x8#4 channel))
  | .cmd90 channel => .op (.rx (Machine.channelByte 0x9#4 channel))
  | .cmdA0 channel => .op (.rx (Machine.channelByte 0xA#4 channel))
  | .cmdB0 channel => .op (.rx (Machine.channelByte 0xB#4 channel))
  | .cmdC0 channel => .op (.rx (Machine.channelByte 0xC#4 channel))
  | .cmdD0 channel => .op (.rx (Machine.channelByte 0xD#4 channel))
  | .cmdE0 channel => .op (.rx (Machine.channelByte 0xE#4 channel))
  | .sysF1 => .op (.rx (Machine.systemByte 0x1#4))
  | .sysF2 => .op (.rx (Machine.systemByte 0x2#4))
  | .sysF3 => .op (.rx (Machine.systemByte 0x3#4))
  | .sysF4 => .op (.rx (Machine.systemByte 0x4#4))
  | .sysF5 => .op (.rx (Machine.systemByte 0x5#4))
  | .sysF6 => .op (.rx (Machine.systemByte 0x6#4))
  | .sysF7 => .op (.rx (Machine.systemByte 0x7#4))
  | .sysF8 => .op (.rx (Machine.systemByte 0x8#4))
  | .sysF9 => .op (.rx (Machine.systemByte 0x9#4))
  | .sysFA => .op (.rx (Machine.systemByte 0xA#4))
  | .sysFB => .op (.rx (Machine.systemByte 0xB#4))
  | .sysFC => .op (.rx (Machine.systemByte 0xC#4))
  | .sysFD => .op (.rx (Machine.systemByte 0xD#4))
  | .sysFE => .op (.rx (Machine.systemByte 0xE#4))
  | .reset => .op .reset
  | .attach cat h => .op (.attach cat h)
  | .detach cat => .op (.detach cat)
  | .sendSysex cmd vals => .op (.sendSysex cmd vals)
  | .sendSysexBad cmd vals => .op (.sendSysex cmd vals)
  | .onSystemReset h => .onSystemReset h
  | .onSysex h => .onSysex h
  | .classify b => .classify b
  | .isData b => .isData b
  | .enc7 v => .enc7 v
  | .dec7 lsb msb => .dec7 lsb msb
  | .decodePayload data => .decodePayload data
  | .doReset => .doReset

/-- The byte of a wire row (R68); none for the rows that R73 gives no encoding. -/
def encodeByte (i : Instr) : Option Byte :=
  match encode i with
  | .op (.rx b) => some b
  | _ => none

/-- The context right after reset in the core configuration (10_state.md R35, R7). -/
def DecodeCtx.afterReset : DecodeCtx :=
  { mode := .idle, count := 0, remaining := 0, mbLen := Config.coreTable }

/-- The instruction the decoder reads from a table row's word in the context right after reset, in
command position (entry 12). Every wire row is one byte (R60); a row without bits has no word (R73). -/
def decodeTableWord (nbits w : Nat) : Option Instr :=
  if nbits = 8 then (decodeByte DecodeCtx.afterReset (BitVec.ofNat 8 w)).toOption else none

/-- A wire row of spec/opcode_table.json, column by column (R73): the byte `b` matches when
`b & mask = pattern`; the row applies in the listed modes under its condition. -/
structure TableRow where
  priority : Nat
  pattern : Byte
  mask : Byte
  modes : List Mode
  condition : DecodeCtx → Byte → Bool
  build : Byte → Instr

/-- The low four bits of a byte, the field `channel` of format `CH`. -/
def channelField (b : Byte) : Nibble := b.setWidth 4

/-- The low seven bits of a byte, the field `d` of format `D7`. -/
def dataField (b : Byte) : Septet := b.setWidth 7

/-- Priorities 1 to 7: the rows of the modes `InSysex` and `AwaitMB`. -/
def frameAndWaitRows : List TableRow :=
  [ ⟨1, 0xFF#8, 0xFF#8, [.inSysex], fun _ _ => true, fun _ => .sxReset⟩,
    ⟨2, 0xF7#8, 0xFF#8, [.inSysex], fun c _ => decide (1 ≤ c.count), fun _ => .sxEnd⟩,
    ⟨3, 0xF7#8, 0xFF#8, [.inSysex], fun c _ => decide (c.count = 0), fun _ => .sxEndEmpty⟩,
    ⟨4, 0x00#8, 0x00#8, [.inSysex], fun c _ => decide (c.count < 32), fun b => .sxData b⟩,
    ⟨5, 0x00#8, 0x00#8, [.inSysex], fun c _ => decide (c.count = 32), fun b => .sxDataOvf b⟩,
    ⟨6, 0x00#8, 0x80#8, [.awaitMB], fun c _ => decide (1 < c.remaining), fun b => .mbData (dataField b)⟩,
    ⟨7, 0x00#8, 0x80#8, [.awaitMB], fun c _ => decide (c.remaining = 1),
      fun b => .mbDataLast (dataField b)⟩ ]

/-- Priorities 8 to 10: the recognised and the arming bytes. -/
def recognisedRows : List TableRow :=
  [ ⟨8, 0xF0#8, 0xFF#8, [.idle, .awaitMB], fun _ _ => true, fun _ => .startSysex⟩,
    ⟨9, 0xFF#8, 0xFF#8, [.idle, .awaitMB], fun _ _ => true, fun _ => .systemReset⟩,
    ⟨10, 0x00#8, 0x00#8, [.idle, .awaitMB],
      fun c b => decide (0 < Machine.mbLenOf c.mbLen (Machine.classify b).command), fun b => .arm b⟩ ]

/-- A row of priority 11: the channel command `pattern`. -/
def channelRow (pattern : Byte) (build : Nibble → Instr) : TableRow :=
  ⟨11, pattern, 0xF0#8, [.idle, .awaitMB],
    fun c _ => decide (Machine.mbLenOf c.mbLen pattern = 0), fun b => build (channelField b)⟩

/-- A row of priority 12: the ignored system byte `pattern`. -/
def systemRow (pattern : Byte) (i : Instr) : TableRow :=
  ⟨12, pattern, 0xFF#8, [.idle, .awaitMB],
    fun c _ => decide (Machine.mbLenOf c.mbLen pattern = 0), fun _ => i⟩

/-- Priority 11: the fifteen channel commands. -/
def channelRows : List TableRow :=
  [ channelRow 0x00#8 .cmd00, channelRow 0x10#8 .cmd10, channelRow 0x20#8 .cmd20,
    channelRow 0x30#8 .cmd30, channelRow 0x40#8 .cmd40, channelRow 0x50#8 .cmd50,
    channelRow 0x60#8 .cmd60, channelRow 0x70#8 .cmd70, channelRow 0x80#8 .cmd80,
    channelRow 0x90#8 .cmd90, channelRow 0xA0#8 .cmdA0, channelRow 0xB0#8 .cmdB0,
    channelRow 0xC0#8 .cmdC0, channelRow 0xD0#8 .cmdD0, channelRow 0xE0#8 .cmdE0 ]

/-- Priority 12: the fourteen ignored system bytes. -/
def systemRows : List TableRow :=
  [ systemRow 0xF1#8 .sysF1, systemRow 0xF2#8 .sysF2, systemRow 0xF3#8 .sysF3,
    systemRow 0xF4#8 .sysF4, systemRow 0xF5#8 .sysF5, systemRow 0xF6#8 .sysF6,
    systemRow 0xF7#8 .sysF7, systemRow 0xF8#8 .sysF8, systemRow 0xF9#8 .sysF9,
    systemRow 0xFA#8 .sysFA, systemRow 0xFB#8 .sysFB, systemRow 0xFC#8 .sysFC,
    systemRow 0xFD#8 .sysFD, systemRow 0xFE#8 .sysFE ]

/-- The 39 wire rows, by rising priority (R73). -/
def wireTable : List TableRow :=
  frameAndWaitRows ++ recognisedRows ++ channelRows ++ systemRows

/-- The row applies to the byte in the context (R73). -/
def TableRow.applies (r : TableRow) (c : DecodeCtx) (b : Byte) : Bool :=
  r.modes.contains c.mode && r.condition c b && (b &&& r.mask) == r.pattern

/-- The decoder written from the table alone: of the rows that apply, the one of lowest priority (R73). -/
def tableDecode (c : DecodeCtx) (b : Byte) : Option Instr :=
  (wireTable.find? (fun r => r.applies c b)).map (fun r => r.build b)

end Sys2Proof
end

