-- ==== Sys2Proof/Machine/Fetch.lean ====
section
/-! DEFINITION. Taking the host's next request, and placing one (00_scope.md R11, 20_memory.md R49 to R51). -/

namespace Sys2Proof.Machine

/-- The next request, and the state that has handed it over; `none` when the host asks for nothing. -/
def State.fetch (s : State) : Option (Request × State) :=
  match s.requests with
  | [] => none
  | r :: rest => some (r, { s with requests := rest })

/-- Decode a request in the state's context; a byte no row takes is refused by name (R64). -/
def State.decodeNext (s : State) (r : Request) : Except Refusal Instr :=
  match decode s.ctx r with
  | .ok i => .ok i
  | .error .noRow => .error .undecodable

/-- Between operations the block is idle and holds its state (R178). -/
def State.idleStep (s : State) : Result := .next s

/-- Hand a request to the block as the very next one. -/
def State.request (s : State) (r : Request) : State := { s with requests := r :: s.requests }

/-- The driver loop's requests: one `Rx` for each available byte, in arrival order (R49, R71). -/
def driverLoop (bytes : List Byte) : List Request := bytes.map (fun b => .op (.rx b))

/-- The byte of a table row's word: bit 0 of the word is bit 0 of the byte (R60). -/
def wordByte (w : Nat) : Byte := BitVec.ofNat 8 w

end Sys2Proof.Machine
end

