-- ==== Sys2Proof/Machine/Step.lean ====
section
/-! DEFINITION. One step of the block: one operation of the host, whole (00_scope.md R11). -/

namespace Sys2Proof.Machine

/-- One step. A state outside the invariants is refused (R27, U13). With no request pending the block
holds its state (R178); else the next request is taken, decoded in the state's context and performed. -/
def step (s : State) : Host.Outcome State Fault Refusal :=
  if s.Inv then
    match s.fetch with
    | none => s.idleStep
    | some (r, t) =>
      match t.decodeNext r with
      | .ok i => exec i t
      | .error e => .refused e
  else .refused .illFormedState

/-- The state in which the next step receives the byte of a table row's word (entry 12). A row without
bits has no word, and the state stays as it is. -/
def State.withFetchWord (s : State) (nbits w : Nat) : State :=
  if nbits = 8 then s.request (.op (.rx (wordByte w))) else s

end Sys2Proof.Machine
end

