-- ==== Sys2Proof/Machine/ProcessByte.lean ====
section
/-! DEFINITION. `process_byte(b)` in one piece, transcribed from the pseudocode of 41_parser.md R91. The machine
performs a byte by decoding it to a row and performing the row; that the two agree is a statement. -/

namespace Sys2Proof.Machine

/-- `Rx(b)` (R91), for a state within the invariants. -/
def State.processByte (s : State) (b : Byte) : State :=
  if s.mode = .inSysex then
    if b = 0xFF#8 then s.doReset
    else if b = 0xF7#8 then
      let t : State := { s with mode := .idle }
      if s.count = 0 then t.emit .emptyFrame
      else
        match s.slotSysex with
        | some h => t.emit (.sysexCallback h (s.cell 0) (s.count - 1) (s.buf.slice 1 s.count))
        | none => t
    else if s.count = 32 then (s.emit .overflow).doReset
    else { s with buf := s.buf.write s.count b, count := s.count + 1 }
  else if s.mode = .awaitMB ∧ b < 128#8 then
    let t : State :=
      { s with remaining := s.remaining - 1, buf := s.buf.write (s.remaining - 1) b }
    if t.remaining = 0 then
      let n := mbLenOf s.mbLen (classify s.armed).command
      State.emit { t with mode := .idle, armed := 0x00#8 } (.multiByteComplete s.armed (t.buf.slice 0 n))
    else t
  else if (classify b).command = 0xF0#8 then
    { s with mode := .inSysex, count := 0, remaining := 0, armed := 0x00#8 }
  else if (classify b).command = 0xFF#8 then s.doReset
  else if 0 < mbLenOf s.mbLen (classify b).command then
    { s with mode := .awaitMB, remaining := mbLenOf s.mbLen (classify b).command, armed := b }
  else s

end Sys2Proof.Machine
end

