-- ==== Sys2Proof/Safety.lean ====
section
/-! DEFINITION. The terms in which claims about the block are stated: runs, what the host sees of a state,
well-formed events, the cells an event can expose, and the renaming of handlers. -/

namespace Sys2Proof.Machine

/-- `n` steps of the machine. -/
abbrev run (n : Nat) (s : State) : Result := Host.Core.run Sys2Proof.core n s

/-- The state with the requests `rs` pending and no others. -/
def State.asked (s : State) (rs : List Request) : State := { s with requests := rs }

/-- A run that never accesses a cell of `BUF` that does not exist (R48): no number of steps faults. -/
def State.Safe (s : State) : Prop := ∀ n f, run n s ≠ .fault f

/-- The byte of a `TxByte` event. -/
def Event.txByte? : Event → Option Byte
  | .txByte b => some b
  | _ => none

/-- The byte of an `Rx` request. -/
def Request.rxByte? : Request → Option Byte
  | .op (.rx b) => some b
  | _ => none

/-- The space `TX`: the bytes written so far, oldest first (R40(c)). -/
def State.tx (s : State) : List Byte := s.out.filterMap Event.txByte?

/-- The space `RX`: the received bytes the host has still to hand over, oldest first (R40(b)). -/
def State.rx (s : State) : List Byte := s.requests.filterMap Request.rxByte?

/-- The shapes R13 and R143 give the events: `len` in `0..31` and exactly `len` bytes in a sysex callback, at
most 32 bytes in a completion, a command of 128 or above in `TxBadCommand` (R163). -/
def Event.wf : Event → Bool
  | .sysexCallback _ _ len data => decide (len ≤ 31) && decide (data.length = len)
  | .resetCallback _ => true
  | .multiByteComplete _ data => decide (data.length ≤ 32)
  | .overflow => true
  | .emptyFrame => true
  | .txBadCommand cmd => !isData cmd
  | .txByte _ => true

/-- The instructions that write a slot (R25, R26). -/
def writesSlot : Instr → Option Category
  | .attach cat _ => some cat
  | .detach cat => some cat
  | .onSystemReset _ => some .systemReset
  | .onSysex _ => some .sysex
  | _ => none

/-- The cells a later event can still expose: the open frame's, and in a multi-byte wait those written
since it was armed (R34, R48). -/
abbrev State.live (s : State) (i : Nat) : Prop :=
  (s.mode = .inSysex ∧ i < s.count) ∨
    (s.mode = .awaitMB ∧ s.remaining ≤ i ∧ i < armedLength s.mbLen s.armed)

/-- Two states that differ only in what R34 calls hidden: stale buffer bytes, and `count` outside a frame. -/
structure SameVisible (s t : State) : Prop where
  mode : s.mode = t.mode
  remaining : s.remaining = t.remaining
  armed : s.armed = t.armed
  slotReset : s.slotReset = t.slotReset
  slotSysex : s.slotSysex = t.slotSysex
  mbLen : s.mbLen = t.mbLen
  requests : s.requests = t.requests
  out : s.out = t.out
  result : s.result = t.result
  count : s.mode = .inSysex → s.count = t.count
  cells : ∀ i, s.live i → s.cell i = t.cell i

/-- The outcome with its next state replaced. -/
def mapNext (g : State → State) : Result → Result
  | .next s => .next (g s)
  | .fault f => .fault f
  | .refused r => .refused r

/-- An operation with its handlers renamed. -/
def Op.rename (f : HandlerId → HandlerId) : Op → Op
  | .rx b => .rx b
  | .reset => .reset
  | .attach cat h => .attach cat (f h)
  | .detach cat => .detach cat
  | .sendSysex cmd vals => .sendSysex cmd vals

/-- A request with its handlers renamed. -/
def Request.rename (f : HandlerId → HandlerId) : Request → Request
  | .op o => .op (Op.rename f o)
  | .onSystemReset h => .onSystemReset (f h)
  | .onSysex h => .onSysex (f h)
  | .classify b => .classify b
  | .isData b => .isData b
  | .enc7 v => .enc7 v
  | .dec7 lsb msb => .dec7 lsb msb
  | .decodePayload data => .decodePayload data
  | .doReset => .doReset

/-- An event with its handlers renamed. -/
def Event.rename (f : HandlerId → HandlerId) : Event → Event
  | .sysexCallback h sub len data => .sysexCallback (f h) sub len data
  | .resetCallback h => .resetCallback (f h)
  | .multiByteComplete armed data => .multiByteComplete armed data
  | .overflow => .overflow
  | .emptyFrame => .emptyFrame
  | .txBadCommand cmd => .txBadCommand cmd
  | .txByte b => .txByte b

/-- A state with its handlers renamed. -/
def State.rename (f : HandlerId → HandlerId) (s : State) : State :=
  { s with
    slotReset := s.slotReset.map f, slotSysex := s.slotSysex.map f,
    requests := s.requests.map (Request.rename f), out := s.out.map (Event.rename f) }

end Sys2Proof.Machine
end

