-- ==== Sys2Proof/Certificates/Slice0/Obligations.lean ====
section
/-! DEFINITION. The statements for the provers. Each docstring names the rules of spec/ it formalises, or says
that it rests on the model's own choice. -/

open Sys2Proof Sys2Proof.Machine

namespace Sys2Proof.Claims

/-! The vocabulary of the statements, written from the rules and not from the meanings. -/

/-- The state after `do_reset`, as R150 lists it: the reset state of Table 10-B, slots unchanged, one
callback at the end if the reset slot is occupied. -/
def afterReset (s : State) : State :=
  { s with
    mode := .idle, remaining := 0, armed := 0x00#8, buf := [], count := 0,
    out := s.out ++ (match s.slotReset with | some h => [Event.resetCallback h] | none => []) }

/-- The core configuration: `MB_LEN(c) = 0` for every `c` (R7). -/
def IsCore (s : State) : Prop := ∀ c, mbLenOf s.mbLen c = 0

/-- The byte is in command position (the condition of Table 30-D's rows 8 to 12). -/
def InCommandPosition (s : State) (b : Byte) : Prop :=
  s.mode = .idle ∨ (s.mode = .awaitMB ∧ 128 ≤ b.toNat)

/-- The byte is stored by the open frame, at index `count` (R95). -/
def StoresInFrame (s : State) (b : Byte) : Prop :=
  s.mode = .inSysex ∧ s.count < 32 ∧ b ≠ 0xF7#8 ∧ b ≠ 0xFF#8

/-- The byte is stored by the multi-byte wait, at index `remaining - 1` (R97, R98). -/
def StoresInWait (s : State) (b : Byte) : Prop := s.mode = .awaitMB ∧ b.toNat < 128

/-- The byte runs `do_reset`: `0xFF` (R92, R100), or the byte that overflows a frame (R96). -/
def ResetsOn (s : State) (b : Byte) : Prop :=
  b = 0xFF#8 ∨ (s.mode = .inSysex ∧ s.count = 32 ∧ b ≠ 0xF7#8)

/-- The bytes written to the transport after the state `a`, up to the state `t` (R40(c), R51). -/
def writtenSince (a t : State) : List Byte := t.tx.drop a.tx.length

/-- R101 for one channel command: `c` its command byte, the byte `c | channel`. -/
def IgnoresChannelCommand (row : Nibble → Instr) (c : Byte) : Prop :=
  ∀ (ch : Nibble) (s : State), InCommandPosition s (c ||| ch.setWidth 8) → mbLenOf s.mbLen c = 0 →
    exec (row ch) s = .next s

/-- R102 for one system byte. -/
def IgnoresSystemByte (row : Instr) (b : Byte) : Prop :=
  ∀ s : State, (s.mode = .idle ∨ s.mode = .awaitMB) → mbLenOf s.mbLen b = 0 → exec row s = .next s

/-- The rows that run `do_reset` (R92, R96, R100, R150, R151). -/
def RunsReset (i : Instr) : Prop :=
  i = .sxReset ∨ i = .systemReset ∨ i = .reset ∨ i = .doReset ∨ ∃ b, i = .sxDataOvf b

/-- `bs` is the frame of R66 for the sub-command `cmd` and the values `vals`, offset by offset. -/
def IsFrameOf (cmd : Byte) (vals : List Word16) (bs : List Byte) : Prop :=
  bs.length = 3 + 2 * vals.length ∧ bs[0]? = some 0xF0#8 ∧ bs[1]? = some cmd ∧
    (∀ i v, vals[i]? = some v →
      (∃ lsb, bs[2 + 2 * i]? = some lsb ∧ lsb.toNat = v.toNat % 128) ∧
        ∃ msb, bs[3 + 2 * i]? = some msb ∧ msb.toNat = v.toNat / 128 % 128) ∧
    bs[2 + 2 * vals.length]? = some 0xF7#8

end Sys2Proof.Claims

open Sys2Proof.Claims

/-! ### Construction, the invariant, the step -/

/-- R190: the state of a new instance. -/
def Obligations.ConstructedStateIsAllClear : Prop :=
  ∀ t : Config.MbTable,
    let s := State.constructed t
    s.mode = .idle ∧ s.remaining = 0 ∧ s.armed = 0x00#8 ∧ s.count = 0 ∧ (∀ i, i < 32 → s.cell i = 0x00#8) ∧
      s.slotReset = none ∧ s.slotSysex = none ∧ s.out = []

/-- R7: the core configuration. That the machine's reset state has it is the model's choice (entry 3). -/
def Obligations.ResetHasCoreConfiguration : Prop :=
  State.reset = State.constructed [] ∧ IsCore State.reset

/-- R27: a new machine satisfies the invariants, whatever its configuration; the list's canonical form is part
of them (entry 10). -/
def Obligations.ConstructedStateSatisfiesInv : Prop :=
  ∀ t : Config.MbTable, (State.constructed t).Inv

/-- R27: every instruction and every step keeps I1 to I4, so every state that any sequence of requests (entry
1) reaches from construction satisfies them. The canonical form of the buffer's list is part of it (entry 10). -/
def Obligations.EveryStepKeepsInv : Prop :=
  (∀ (i : Instr) (s t : State), s.Inv → exec i s = .next t → t.Inv) ∧
    (∀ s t : State, s.Inv → step s = .next t → t.Inv) ∧
      ∀ (cfg : Config.MbTable) (rs : List Request) (n : Nat) (t : State),
        run n ((State.constructed cfg).asked rs) = .next t → t.Inv

/-- What one step does with the next request. The idle step rests on R178 and entry 1, the refusal of a
state outside the invariants on R27 and entry 8. -/
def Obligations.StepPerformsDecodedRequest : Prop :=
  (∀ s : State, s.Inv → s.requests = [] → step s = .next s) ∧
    (∀ (s : State) (r : Request) (rest : List Request) (i : Instr),
      s.Inv → s.requests = r :: rest → decode s.ctx r = .ok i →
        step s = exec i { s with requests := rest }) ∧
      ∀ s : State, ¬ s.Inv → step s = .refused .illFormedState

/-- R107: exactly one row takes a byte (a pending request, entry 1), the step completes within the invariants, and in the core
configuration no multi-byte row is ever selected and the mode `AwaitMB` is not entered. -/
def Obligations.ExactlyOneRowTakesEveryByte : Prop :=
  (∀ (s : State) (b : Byte) (rest : List Request), s.Inv → s.requests = .op (.rx b) :: rest →
    (∃ i : Instr, (encode i = .op (.rx b) ∧ i.WellFormed = true ∧ rowContext s.ctx i = true) ∧
      ∀ j : Instr, encode j = .op (.rx b) ∧ j.WellFormed = true ∧ rowContext s.ctx j = true → j = i) ∧
    ∃ t, step s = .next t ∧ t.Inv) ∧
  (∀ s t : State, IsCore s → s.mode ≠ .awaitMB → step s = .next t → IsCore t ∧ t.mode ≠ .awaitMB) ∧
  ∀ (s : State) (b : Byte) (i : Instr), IsCore s → s.mode ≠ .awaitMB →
    decode s.ctx (.op (.rx b)) = .ok i →
      (∀ x, i ≠ .arm x) ∧ (∀ d, i ≠ .mbData d) ∧ ∀ d, i ≠ .mbDataLast d

/-- R91: decoding a byte (a pending request, entry 1) and performing its row is the receive function in one piece. -/
def Obligations.ReceivedByteRunsProcessByte : Prop :=
  ∀ (s : State) (b : Byte) (rest : List Request), s.Inv → s.requests = .op (.rx b) :: rest →
    step s = .next (State.processByte { s with requests := rest } b)

/-! ### Encoding -/

/-- Decoding what the encoder gives a well-formed instruction, in any context in which its row is selected,
gives the instruction back: all 52 rows, every operand. -/
def Obligations.DecodeInvertsEncode : Prop :=
  ∀ (c : DecodeCtx) (i : Instr), i.WellFormed = true → rowContext c i = true →
    decode c (encode i) = .ok i

/-- R73: the decoder written from the opcode table alone (lowest priority of the rows that apply) finds a row
for every byte, and it is the row of the priority order of R64. -/
def Obligations.TableDecoderAgrees : Prop :=
  ∀ (c : DecodeCtx) (b : Byte), (c.mode = .awaitMB → 1 ≤ c.remaining) → (c.mode = .inSysex → c.count ≤ 32) →
    ∃ i, decodeByte c b = .ok i ∧ tableDecode c b = some i

/-- A few bytes written out from Tables 30-A to 30-D, in the contexts that select them. -/
def Obligations.WrittenBytesDecode : Prop :=
  decodeByte ⟨.idle, 0, 0, []⟩ 0b00010010#8 = .ok (.cmd10 0b0010#4) ∧
    decodeByte ⟨.idle, 0, 0, []⟩ 0b11101111#8 = .ok (.cmdE0 0b1111#4) ∧
    decodeByte ⟨.idle, 0, 0, []⟩ 0b11110000#8 = .ok .startSysex ∧
    decodeByte ⟨.idle, 0, 0, []⟩ 0b11110111#8 = .ok .sysF7 ∧
    decodeByte ⟨.idle, 0, 0, []⟩ 0b11111111#8 = .ok .systemReset ∧
    decodeByte ⟨.inSysex, 0, 0, []⟩ 0b11110111#8 = .ok .sxEndEmpty ∧
    decodeByte ⟨.inSysex, 1, 0, []⟩ 0b11110111#8 = .ok .sxEnd ∧
    decodeByte ⟨.inSysex, 31, 0, []⟩ 0b11110000#8 = .ok (.sxData 0b11110000#8) ∧
    decodeByte ⟨.inSysex, 32, 0, []⟩ 0b00100001#8 = .ok (.sxDataOvf 0b00100001#8) ∧
    decodeByte ⟨.inSysex, 32, 0, []⟩ 0b11111111#8 = .ok .sxReset ∧
    decodeByte ⟨.awaitMB, 0, 2, [(0xE0#8, 2)]⟩ 0b01001000#8 = .ok (.mbData 0b1001000#7) ∧
    decodeByte ⟨.awaitMB, 0, 1, [(0xE0#8, 2)]⟩ 0b00000001#8 = .ok (.mbDataLast 0b0000001#7) ∧
    decodeByte ⟨.idle, 0, 0, [(0xE0#8, 2)]⟩ 0b11100011#8 = .ok (.arm 0b11100011#8)

/-! ### In a frame -/

/-- R92. -/
def Obligations.ResetByteInFrameResets : Prop :=
  ∀ s : State, s.mode = .inSysex → exec .sxReset s = .next (afterReset s)

/-- R93: `mode` is the only register written; the callback carries `buf[0]`, `count - 1` and `buf[1..count)`. -/
def Obligations.EndOfFrameDeliversFrame : Prop :=
  (∀ s : State, s.mode = .inSysex → 1 ≤ s.count → s.slotSysex = none →
    exec .sxEnd s = .next { s with mode := .idle }) ∧
  ∀ (s : State) (h : HandlerId), s.mode = .inSysex → 1 ≤ s.count → s.count ≤ 32 → s.slotSysex = some h →
    ∃ data : List Byte, data.length = s.count - 1 ∧
      (∀ k, k < s.count - 1 → data[k]? = some (s.cell (k + 1))) ∧
      exec .sxEnd s =
        .next { s with
          mode := .idle
          out := s.out ++ [.sysexCallback h (s.cell 0) (s.count - 1) data] }

/-- R94. -/
def Obligations.EmptyFrameIsReported : Prop :=
  ∀ s : State, s.mode = .inSysex → s.count = 0 →
    exec .sxEndEmpty s = .next { s with mode := .idle, out := s.out ++ [.emptyFrame] }

/-- R95: the byte lands at index `count`, every other cell reads as before, `count` is one more, and nothing
else changes. That the buffer's list is canonical before and after is the model's own form (entry 10). -/
def Obligations.FrameByteIsStoredAtCount : Prop :=
  ∀ (s : State) (b : Byte), s.buf.wf = true → s.mode = .inSysex → s.count < 32 → b ≠ 0xF7#8 → b ≠ 0xFF#8 →
    ∃ t, exec (.sxData b) s = .next t ∧ t = { s with buf := t.buf, count := s.count + 1 } ∧
      t.buf.wf = true ∧ t.cell s.count = b ∧ ∀ i, i ≠ s.count → t.cell i = s.cell i

/-- R96: the byte is dropped, `Overflow` comes first, then the full reset with its callback. -/
def Obligations.FullFrameOverflowsThenResets : Prop :=
  ∀ (s : State) (b : Byte), s.mode = .inSysex → s.count = 32 → b ≠ 0xF7#8 → b ≠ 0xFF#8 →
    exec (.sxDataOvf b) s = .next (afterReset { s with out := s.out ++ [.overflow] })

/-- R161, the source's overflow property over every list of 33 or more data bytes: an open frame that is
not ended raises `Overflow` exactly once and ends reset, the later bytes being ignored. The bytes are pending
requests (entry 1). -/
def Obligations.UnterminatedFrameOverflowsOnce : Prop :=
  ∀ (s : State) (ds : List Septet) (rest : List Request), s.Inv → s.mode = .idle → IsCore s →
    33 ≤ ds.length → s.requests = driverLoop (0xF0#8 :: ds.map dataByte) ++ rest →
      run (1 + ds.length) s =
        .next (afterReset { s with requests := rest, out := s.out ++ [.overflow] })

/-! ### In a multi-byte wait -/

/-- R97: decrement, then store at the decremented index. That the buffer's list is canonical before and after is
the model's own form (entry 10). -/
def Obligations.WaitByteIsStoredDownward : Prop :=
  ∀ (s : State) (d : Septet), s.buf.wf = true → s.mode = .awaitMB → 1 < s.remaining → s.remaining ≤ 32 →
    ∃ t, exec (.mbData d) s = .next t ∧ t = { s with buf := t.buf, remaining := s.remaining - 1 } ∧
      t.buf.wf = true ∧ (t.cell (s.remaining - 1)).toNat = d.toNat ∧
      ∀ i, i ≠ s.remaining - 1 → t.cell i = s.cell i

/-- R98: the last byte lands at index 0, the event carries the arming byte and `buf[0..n)` in index order,
and the block returns to `Idle`. That the buffer's list is canonical before and after is the model's own form
(entry 10). -/
def Obligations.LastWaitByteCompletes : Prop :=
  ∀ (s : State) (d : Septet), s.buf.wf = true → s.mode = .awaitMB → s.remaining = 1 →
    ∃ (t : State) (data : List Byte), exec (.mbDataLast d) s = .next t ∧
      t = { s with
        mode := .idle, remaining := 0, armed := 0x00#8, buf := t.buf
        out := s.out ++ [.multiByteComplete s.armed data] } ∧
      t.buf.wf = true ∧ (t.cell 0).toNat = d.toNat ∧ (∀ i, i ≠ 0 → t.cell i = s.cell i) ∧
      data.length = mbLenOf s.mbLen (classify s.armed).command ∧
      ∀ k, k < data.length → data[k]? = some (t.cell k)

/-- R44: with `n` bytes armed the first data byte lands at `buf[n-1]` and the last at `buf[0]`, and the
completion event shows them in the reverse of arrival order. The bytes are pending requests (entry 1). -/
def Obligations.MultiByteDataArrivesReversed : Prop :=
  ∀ (s : State) (b : Byte) (ds : List Septet) (rest : List Request), s.Inv → s.mode = .idle →
    b ≠ 0xF0#8 → b ≠ 0xFF#8 → 0 < ds.length → mbLenOf s.mbLen (classify b).command = ds.length →
      s.requests = driverLoop (b :: ds.map dataByte) ++ rest →
        ∃ t, run (1 + ds.length) s = .next t ∧
          t = { s with
            buf := t.buf, requests := rest
            out := s.out ++ [.multiByteComplete b (ds.map dataByte).reverse] } ∧
          (∀ k, k < ds.length → (ds.map dataByte)[k]? = some (t.cell (ds.length - 1 - k))) ∧
          ∀ i, ds.length ≤ i → t.cell i = s.cell i

/-! ### In command position -/

/-- R99. -/
def Obligations.StartSysexOpensFrame : Prop :=
  ∀ s : State, s.mode = .idle ∨ s.mode = .awaitMB →
    exec .startSysex s =
      .next { s with mode := .inSysex, count := 0, remaining := 0, armed := 0x00#8 }

/-- R100. -/
def Obligations.SystemResetByteResets : Prop :=
  ∀ s : State, s.mode = .idle ∨ s.mode = .awaitMB → exec .systemReset s = .next (afterReset s)

/-- R103: `ARM` from `Idle`, and from `AwaitMB` where it replaces the wait. -/
def Obligations.ArmingByteStartsWait : Prop :=
  ∀ (s : State) (b : Byte), InCommandPosition s b → b ≠ 0xF0#8 → b ≠ 0xFF#8 →
    0 < mbLenOf s.mbLen (classify b).command →
      exec (.arm b) s =
        .next { s with
          mode := .awaitMB, remaining := mbLenOf s.mbLen (classify b).command, armed := b }

/-- R101, for each of the fifteen channel commands: no register, cell or event changes. -/
def Obligations.ChannelCommandsAreIgnored : Prop :=
  IgnoresChannelCommand .cmd00 0x00#8 ∧ IgnoresChannelCommand .cmd10 0x10#8 ∧
    IgnoresChannelCommand .cmd20 0x20#8 ∧ IgnoresChannelCommand .cmd30 0x30#8 ∧
    IgnoresChannelCommand .cmd40 0x40#8 ∧ IgnoresChannelCommand .cmd50 0x50#8 ∧
    IgnoresChannelCommand .cmd60 0x60#8 ∧ IgnoresChannelCommand .cmd70 0x70#8 ∧
    IgnoresChannelCommand .cmd80 0x80#8 ∧ IgnoresChannelCommand .cmd90 0x90#8 ∧
    IgnoresChannelCommand .cmdA0 0xA0#8 ∧ IgnoresChannelCommand .cmdB0 0xB0#8 ∧
    IgnoresChannelCommand .cmdC0 0xC0#8 ∧ IgnoresChannelCommand .cmdD0 0xD0#8 ∧
    IgnoresChannelCommand .cmdE0 0xE0#8

/-- R102, for each of the fourteen system bytes: no register, cell or event changes. -/
def Obligations.SystemBytesAreIgnored : Prop :=
  IgnoresSystemByte .sysF1 0xF1#8 ∧ IgnoresSystemByte .sysF2 0xF2#8 ∧ IgnoresSystemByte .sysF3 0xF3#8 ∧
    IgnoresSystemByte .sysF4 0xF4#8 ∧ IgnoresSystemByte .sysF5 0xF5#8 ∧ IgnoresSystemByte .sysF6 0xF6#8 ∧
    IgnoresSystemByte .sysF7 0xF7#8 ∧ IgnoresSystemByte .sysF8 0xF8#8 ∧ IgnoresSystemByte .sysF9 0xF9#8 ∧
    IgnoresSystemByte .sysFA 0xFA#8 ∧ IgnoresSystemByte .sysFB 0xFB#8 ∧ IgnoresSystemByte .sysFC 0xFC#8 ∧
    IgnoresSystemByte .sysFD 0xFD#8 ∧ IgnoresSystemByte .sysFE 0xFE#8

/-! ### Reset -/

/-- R150, for the procedure itself: the new state, every cell zero, the slots unchanged. -/
def Obligations.DoResetClearsThenCallsBack : Prop :=
  ∀ s : State, exec .doReset s = .next (afterReset s) ∧ (∀ i, (afterReset s).cell i = 0x00#8) ∧
    (afterReset s).slotReset = s.slotReset ∧ (afterReset s).slotSysex = s.slotSysex

/-- R151: the reset call runs `do_reset`, and has in every mode the effect of the byte `0xFF` received
there (both as pending requests, entry 1). -/
def Obligations.ResetCallEqualsResetByte : Prop :=
  (∀ s : State, exec .reset s = .next (afterReset s)) ∧
    ∀ (s : State) (rest : List Request),
      step { s with requests := .op .reset :: rest } =
        step { s with requests := .op (.rx 0xFF#8) :: rest }

/-- R152: each of the rows that run `do_reset` makes exactly one reset callback when the slot is occupied,
and a second reset call repeats the callback and changes nothing else. -/
def Obligations.OneCallbackPerResetEvent : Prop :=
  (∀ (i : Instr) (s t : State) (h : HandlerId), RunsReset i → s.slotReset = some h → exec i s = .next t →
    ∃ es, t.out = s.out ++ es ∧ es.count (.resetCallback h) = 1 ∧
      ∀ g, g ≠ h → es.count (.resetCallback g) = 0) ∧
  ∀ (s t : State) (h : HandlerId), s.slotReset = some h → exec .reset s = .next t →
    exec .reset t = .next { t with out := t.out ++ [.resetCallback h] }

/-! ### Registry -/

/-- R140. -/
def Obligations.AttachReplacesItsSlot : Prop :=
  ∀ (h : HandlerId) (s : State),
    exec (.attach .systemReset h) s = .next { s with slotReset := some h } ∧
      exec (.attach .sysex h) s = .next { s with slotSysex := some h }

/-- R141. -/
def Obligations.DetachEmptiesItsSlot : Prop :=
  ∀ s : State,
    exec (.detach .systemReset) s = .next { s with slotReset := none } ∧
      exec (.detach .sysex) s = .next { s with slotSysex := none }

/-- R144: the two pseudo-operations set their slot, as `Attach` does. -/
def Obligations.OnHandlersAreAttach : Prop :=
  ∀ (h : HandlerId) (s : State),
    exec (.onSystemReset h) s = .next { s with slotReset := some h } ∧
      exec (.onSystemReset h) s = exec (.attach .systemReset h) s ∧
      exec (.onSysex h) s = .next { s with slotSysex := some h } ∧
      exec (.onSysex h) s = exec (.attach .sysex h) s

/-- R25, R26, R154: no instruction but the registry's own writes a slot. -/
def Obligations.OnlyRegistryWritesSlots : Prop :=
  ∀ (i : Instr) (s t : State), exec i s = .next t →
    (writesSlot i ≠ some .systemReset → t.slotReset = s.slotReset) ∧
      (writesSlot i ≠ some .sysex → t.slotSysex = s.slotSysex)

/-! ### Codec and encoder -/

/-- R124: the frame of R66 is written byte by byte, in order, and no register changes. -/
def Obligations.SendSysexWritesFrame : Prop :=
  ∀ (cmd : Byte) (vals : List Word16), cmd.toNat < 128 →
    ∃ bs, IsFrameOf cmd vals bs ∧
      ∀ s : State, exec (.sendSysex cmd vals) s = .next { s with out := s.out ++ bs.map .txByte }

/-- R125: nothing is transmitted, the command is reported, no register changes. -/
def Obligations.BadCommandSendsNothing : Prop :=
  ∀ (cmd : Byte) (vals : List Word16) (s : State), 128 ≤ cmd.toNat →
    exec (.sendSysexBad cmd vals) s = .next { s with out := s.out ++ [.txBadCommand cmd] }

/-- R80. The function's value stands on the model's result port (entry 5). -/
def Obligations.ClassifySplitsByte : Prop :=
  ∀ (b : Byte) (s : State), ∃ (command : Byte) (channel : Option Nibble),
    exec (.classify b) s = .next { s with result := some (.classified command channel) } ∧
      (b.toNat < 0xF0 → command = b &&& 0xF0#8 ∧ ∃ ch, channel = some ch ∧ ch.toNat = (b &&& 0x0F#8).toNat) ∧
      (0xF0 ≤ b.toNat → command = b ∧ channel = none)

/-- R83's function: `b < 128`, equivalently bit 7 clear. The value stands on the result port (entry 5). -/
def Obligations.IsDataTestsBitSeven : Prop :=
  ∀ (b : Byte) (s : State),
    exec (.isData b) s = .next { s with result := some (.dataTest (decide (b.toNat < 128))) } ∧
      decide (b.toNat < 128) = !b.getLsbD 7

/-- R120: the low seven bits first; R123: bits 15 and 14 are dropped. The value stands on the result port
(entry 5). -/
def Obligations.Enc7SplitsLowSevenFirst : Prop :=
  ∀ (v : Word16) (s : State), ∃ lsb msb : Byte,
    exec (.enc7 v) s = .next { s with result := some (.pair lsb msb) } ∧
      lsb.toNat = v.toNat % 128 ∧ msb.toNat = v.toNat / 128 % 128 ∧
      lsb.toNat + 128 * msb.toNat = v.toNat % 16384

/-- R121: `msb * 128 + lsb`. The value stands on the result port (entry 5). -/
def Obligations.Dec7JoinsPair : Prop :=
  ∀ (lsb msb : Septet) (s : State), ∃ v : Value14,
    exec (.dec7 lsb msb) s = .next { s with result := some (.value v) } ∧
      v.toNat = lsb.toNat + 128 * msb.toNat

/-- R122: the two functions are inverse to each other on `0..16383` and the pairs of seven-bit values. -/
def Obligations.PairCodecRoundTrips : Prop :=
  (∀ v : Word16, v.toNat ≤ 16383 →
    (dec7 ((enc7 v).1.setWidth 7) ((enc7 v).2.setWidth 7)).toNat = v.toNat) ∧
    ∀ lsb msb : Septet, enc7 ((dec7 lsb msb).setWidth 16) = (lsb.setWidth 8, msb.setWidth 8)

/-- R128: the decoded payload of a list of pairs is the list of their values. The values stand on the result
port (entry 5). -/
def Obligations.DecodePayloadReadsPairs : Prop :=
  ∀ (ps : List (Septet × Septet)) (s : State), ∃ vs : List Value14,
    exec (.decodePayload (ps.flatMap fun p => [dataByte p.1, dataByte p.2])) s =
        .next { s with result := some (.values vs) } ∧
      vs.length = ps.length ∧
      ∀ (i : Nat) (p : Septet × Septet), ps[i]? = some p →
        ∃ v, vs[i]? = some v ∧ v.toNat = p.1.toNat + 128 * p.2.toNat

/-- R129: a payload of odd length or with a byte of 128 or above is refused, not padded, dropped or masked
(entry 9). -/
def Obligations.MalformedPayloadIsRefused : Prop :=
  ∀ (data : List Byte) (s : State), data.length % 2 = 1 ∨ (∃ b ∈ data, 128 ≤ b.toNat) →
    exec (.decodePayload data) s = .refused .payloadNotPairs

/-- R132: what one machine sends, whatever it has written before, is what another delivers, as one callback on
the last byte, and the payload decodes to the values sent. The bytes travel through the model's own fields (entries 1 and 2). -/
def Obligations.LoopbackDeliversSentValues : Prop :=
  ∀ (cmd : Byte) (vals : List Word16) (a a' s : State) (h : HandlerId) (rest : List Request),
    cmd.toNat < 128 → vals.length ≤ 15 → (∀ v ∈ vals, v.toNat ≤ 16383) →
      exec (.sendSysex cmd vals) a = .next a' →
        s.Inv → s.mode = .idle → s.slotSysex = some h → s.requests = driverLoop (writtenSince a a') ++ rest →
          (∃ m, run (2 + 2 * vals.length) s = .next m ∧ m.out = s.out) ∧
            ∃ (t : State) (data : List Byte), run (3 + 2 * vals.length) s = .next t ∧
              t.out = s.out ++ [.sysexCallback h cmd (2 * vals.length) data] ∧
              decodePayload data = some (vals.map fun v => v.setWidth 14) ∧
              t.mode = .idle ∧ t.count = 1 + 2 * vals.length ∧ t.requests = rest

/-! ### Rules about the whole machine -/

/-- R90: receiving a byte (a pending request, entry 1) writes no slot and no configuration, emits at most two
events and never transmits. In memory it writes the byte to cell `count` (a frame byte that fits) or to cell
`remaining - 1` (a data byte of a wait), clears every cell (a byte that resets), or writes nothing. -/
def Obligations.ReceivingNeverTransmits : Prop :=
  ∀ (s : State) (b : Byte) (rest : List Request), s.Inv → s.requests = .op (.rx b) :: rest →
    ∃ (t : State) (es : List Event), step s = .next t ∧ t.out = s.out ++ es ∧ es.length ≤ 2 ∧
      (∀ x, Event.txByte x ∉ es) ∧
      t.slotReset = s.slotReset ∧ t.slotSysex = s.slotSysex ∧ t.mbLen = s.mbLen ∧ t.result = s.result ∧
      t.requests = rest ∧
      (StoresInFrame s b → t.cell s.count = b ∧ ∀ i, i ≠ s.count → t.cell i = s.cell i) ∧
      (StoresInWait s b → t.cell (s.remaining - 1) = b ∧ ∀ i, i ≠ s.remaining - 1 → t.cell i = s.cell i) ∧
      (ResetsOn s b → ∀ i, t.cell i = 0x00#8) ∧
      (¬ StoresInFrame s b → ¬ StoresInWait s b → ¬ ResetsOn s b → ∀ i, t.cell i = s.cell i)

/-- R168: the only byte (a pending request, entry 1) that gives two events is the one that overflows, `Overflow`
before `ResetCallback`. -/
def Obligations.OverflowComesBeforeResetCallback : Prop :=
  ∀ (s t : State) (b : Byte) (rest : List Request) (e1 e2 : Event) (es : List Event),
    s.requests = .op (.rx b) :: rest → step s = .next t → t.out = s.out ++ e1 :: e2 :: es →
      s.mode = .inSysex ∧ s.count = 32 ∧ b ≠ 0xF7#8 ∧ b ≠ 0xFF#8 ∧ e1 = .overflow ∧ es = [] ∧
        ∃ h, s.slotReset = some h ∧ e2 = .resetCallback h

/-- R108: an open frame is left only by `0xF7`, by `0xFF` or a reset (the procedure itself among them, entry
6), or by a byte that finds the buffer full; otherwise it stays open. -/
def Obligations.OnlyThreeThingsCloseFrame : Prop :=
  ∀ (s t : State) (r : Request) (rest : List Request), s.mode = .inSysex → s.requests = r :: rest →
    step s = .next t →
      (t.mode ≠ .inSysex ↔
        r = .op (.rx 0xF7#8) ∨ r = .op (.rx 0xFF#8) ∨ r = .op .reset ∨ r = .doReset ∨
          ((∃ b, r = .op (.rx b)) ∧ s.count = 32))

/-- R20 to R24: each parser register is written by the rules its own rule lists and by no other. -/
def Obligations.RegistersHaveTheirListedWriters : Prop :=
  ∀ (i : Instr) (s t : State), exec i s = .next t →
    (t.mode ≠ s.mode →
      RunsReset i ∨ i = .sxEnd ∨ i = .sxEndEmpty ∨ (∃ d, i = .mbDataLast d) ∨ i = .startSysex ∨ ∃ b, i = .arm b) ∧
    (t.remaining ≠ s.remaining →
      RunsReset i ∨ (∃ d, i = .mbData d) ∨ (∃ d, i = .mbDataLast d) ∨ i = .startSysex ∨ ∃ b, i = .arm b) ∧
    (t.count ≠ s.count → RunsReset i ∨ (∃ b, i = .sxData b) ∨ i = .startSysex) ∧
    (t.armed ≠ s.armed → RunsReset i ∨ (∃ d, i = .mbDataLast d) ∨ i = .startSysex ∨ ∃ b, i = .arm b) ∧
    (t.buf ≠ s.buf →
      RunsReset i ∨ (∃ b, i = .sxData b) ∨ (∃ d, i = .mbData d) ∨ ∃ d, i = .mbDataLast d)

/-- R7, R33(d): no instruction writes the configuration; and none takes or adds a request (entry 1). -/
def Obligations.ExecKeepsConfigurationAndRequests : Prop :=
  ∀ (i : Instr) (s t : State), exec i s = .next t → t.mbLen = s.mbLen ∧ t.requests = s.requests

/-- R13: events are only appended, and no rule reads one. The stream `out` is the model's own field (entry 2). -/
def Obligations.EventsAreAppendedAndNeverRead : Prop :=
  ∀ s t : State, step s = .next t →
    ∃ es, t.out = s.out ++ es ∧
      ∀ o, step { s with out := o } = .next { t with out := o ++ es }

/-- R13, R143, R163: every event has the shape its rule gives it, and every step keeps it so. -/
def Obligations.EventsKeepTheirShape : Prop :=
  ∀ s t : State, s.Inv → (∀ e ∈ s.out, e.wf = true) → step s = .next t → ∀ e ∈ t.out, e.wf = true

/-- R9: the block never inspects a handler identity: renaming the handlers, even two to one, renames them in
the outcome and changes nothing else (the identities' type is entry 4). -/
def Obligations.HandlersAreNeverInspected : Prop :=
  ∀ (f : HandlerId → HandlerId) (s : State), step (s.rename f) = mapNext (State.rename f) (step s)

/-- R34: stale cells, and `count` outside a frame, are not observable through any event: two states that
differ only there step to two states that differ only there, with the same events. -/
def Obligations.HiddenStateIsNeverObserved : Prop :=
  ∀ s s' t : State, s.Inv → s'.Inv → SameVisible s s' → step s = .next t →
    ∃ t', step s' = .next t' ∧ SameVisible t t'

/-- R48: from a state within the invariants no number of steps accesses a cell that does not exist. -/
def Obligations.InvStatesNeverFault : Prop :=
  ∀ s : State, s.Inv → s.Safe

/-- Outside the invariants the access check stands (R48, entry 10): a store below a `remaining` over 32, and the
delivery of a frame whose `count` is over 32, fault. -/
def Obligations.MissingCellFaults : Prop :=
  (∀ (s : State) (d : Septet), s.mode = .awaitMB → 32 < s.remaining →
    exec (.mbData d) s = .fault (.bufIndexOutOfRange (s.remaining - 1))) ∧
    ∀ (s : State) (h : HandlerId), s.mode = .inSysex → 32 < s.count → s.slotSysex = some h →
      exec .sxEnd s = .fault (.bufIndexOutOfRange (s.count - 1))

/-- An instruction completes exactly where its operand lies in its row's range and Table 30-D selects its row;
elsewhere it is refused by name, which is the model's choice (entries 7 and 9). -/
def Obligations.InstructionCompletesExactlyWhenSelected : Prop :=
  ∀ (i : Instr) (s : State), s.Inv →
    ((∃ t, exec i s = .next t) ↔ i.WellFormed = true ∧ rowContext s.ctx i = true) ∧
      (¬ (i.WellFormed = true ∧ rowContext s.ctx i = true) →
        exec i s = .refused .rowNotSelected ∨ ∃ data, i = .decodePayload data ∧ exec i s = .refused .payloadNotPairs)

/-- Within the invariants a step stops for one reason only: a payload to decode that is no sequence of pairs
(R107, R129; entries 1 and 9). -/
def Obligations.StepStopsOnlyOnMalformedPayload : Prop :=
  ∀ s : State, s.Inv →
    (∃ t, step s = .next t) ∨
      ∃ data rest, s.requests = .decodePayload data :: rest ∧ decodePayload data = none ∧
        step s = .refused .payloadNotPairs
end

