-- ==== Sys2Proof/Laws/Operands.lean ====
section
/-! SUPPORT. The small lemmas of the combinational functions and of the byte formats. -/

namespace Sys2Proof.Machine

theorem isData_iff (b : Byte) : isData b = true ↔ b.toNat < 128 := by
  simp [isData, Config.dataLimit, BitVec.lt_def]

@[simp] theorem isData_dataByte (d : Septet) : isData (dataByte d) = true := by
  rw [isData_iff]
  have := d.isLt
  simp only [dataByte, BitVec.toNat_setWidth]
  omega

@[simp] theorem dataField_dataByte (d : Septet) : dataField (dataByte d) = d := by
  revert d; decide

theorem dataByte_dataField (b : Byte) (h : isData b = true) : dataByte (dataField b) = b := by
  revert b; decide

@[simp] theorem channelField_channelByte (hi ch : Nibble) : channelField (channelByte hi ch) = ch := by
  revert hi ch; decide

@[simp] theorem highNibble_channelByte (hi ch : Nibble) : channelByte hi ch &&& 0xF0#8 = channelByte hi 0#4 := by
  revert hi ch; decide

/-- A channel command's classification (R61). -/
theorem classify_channelByte (hi ch : Nibble) (h : hi ≠ 0xF#4) :
    classify (channelByte hi ch) = { command := channelByte hi 0#4, channel := some ch } := by
  revert hi ch; decide

/-- A system byte is its own command and has no channel (R62). -/
theorem classify_systemByte (sel : Nibble) :
    classify (systemByte sel) = { command := systemByte sel, channel := none } := by
  revert sel; decide

/-- The only byte of command `0xF0` is `0xF0` itself (R80). -/
theorem command_startSysex (b : Byte) : (classify b).command = Config.startSysexByte ↔ b = Config.startSysexByte := by
  revert b; decide

/-- The only byte of command `0xFF` is `0xFF` itself (R80). -/
theorem command_systemReset (b : Byte) :
    (classify b).command = Config.systemResetByte ↔ b = Config.systemResetByte := by
  revert b; decide

/-- Every command-position byte but the two recognised ones has an ignored row (R68). -/
theorem ignoredByte_isSome (b : Byte) (h0 : b ≠ Config.startSysexByte) (h1 : b ≠ Config.systemResetByte) :
    (ignoredByte b).isSome = true := by
  revert b; decide

/-- `MB_LEN` is at most the capacity (R7). -/
theorem mbLenOf_le (t : Config.MbTable) (c : Byte) : mbLenOf t c ≤ Config.capacity := by
  induction t with
  | nil => exact Nat.zero_le _
  | cons e rest ih =>
    obtain ⟨k, n⟩ := e
    unfold mbLenOf
    split
    · exact Nat.le_of_lt_succ n.isLt
    · exact ih

theorem armedLength_le (t : Config.MbTable) (b : Byte) : armedLength t b ≤ Config.capacity :=
  mbLenOf_le t _

/-- The core configuration arms nothing (R7). -/
@[simp] theorem armedLength_core (b : Byte) : armedLength Config.coreTable b = 0 := rfl

@[simp] theorem length_encodeValues (vs : List Word16) : (encodeValues vs).length = 2 * vs.length := by
  induction vs with
  | nil => rfl
  | cons v vs ih => simp only [encodeValues, List.length_cons, ih]; omega

/-- A frame of `k` values is `3 + 2k` bytes long (R66). -/
@[simp] theorem length_frameBytes (cmd : Byte) (vs : List Word16) :
    (frameBytes cmd vs).length = 3 + 2 * vs.length := by
  simp only [frameBytes, List.length_cons, List.length_append, length_encodeValues, List.length_nil]
  omega

/-- Both bytes of a pair are data bytes (R120). -/
theorem isData_enc7 (v : Word16) : isData (enc7 v).1 = true ∧ isData (enc7 v).2 = true := by
  have h1 : v.toNat % 128 < 128 := Nat.mod_lt _ (by decide)
  have h2 : (v.toNat / 128) % 128 < 128 := Nat.mod_lt _ (by decide)
  have e : (0x7F#16).toNat = 2 ^ 7 - 1 := rfl
  constructor <;> rw [isData_iff] <;>
    simp only [enc7, BitVec.toNat_setWidth, BitVec.toNat_and, BitVec.toNat_ushiftRight, e,
      Nat.and_two_pow_sub_one_eq_mod, Nat.shiftRight_eq_div_pow] <;> omega

theorem all_isData_encodeValues (vs : List Word16) : ∀ b ∈ encodeValues vs, isData b = true := by
  induction vs with
  | nil => intro b hb; cases hb
  | cons v vs ih =>
    intro b hb
    simp only [encodeValues, List.mem_cons] at hb
    rcases hb with rfl | rfl | hb
    · exact (isData_enc7 v).1
    · exact (isData_enc7 v).2
    · exact ih b hb

end Sys2Proof.Machine
end

