-- ==== Sys2Proof/Laws/State.lean ====
section
/-! SUPPORT. One lemma per field for each update of the state. -/

namespace Sys2Proof.Machine

section
variable (s : State) (e : Event) (bs : List Byte) (r : FuncResult) (q : Request) (v : Option HandlerId)

@[simp] theorem State.emit_mode : (s.emit e).mode = s.mode := rfl
@[simp] theorem State.emit_remaining : (s.emit e).remaining = s.remaining := rfl
@[simp] theorem State.emit_count : (s.emit e).count = s.count := rfl
@[simp] theorem State.emit_buf : (s.emit e).buf = s.buf := rfl
@[simp] theorem State.emit_armed : (s.emit e).armed = s.armed := rfl
@[simp] theorem State.emit_slotReset : (s.emit e).slotReset = s.slotReset := rfl
@[simp] theorem State.emit_slotSysex : (s.emit e).slotSysex = s.slotSysex := rfl
@[simp] theorem State.emit_mbLen : (s.emit e).mbLen = s.mbLen := rfl
@[simp] theorem State.emit_requests : (s.emit e).requests = s.requests := rfl
@[simp] theorem State.emit_out : (s.emit e).out = s.out ++ [e] := rfl
@[simp] theorem State.emit_result : (s.emit e).result = s.result := rfl

@[simp] theorem State.transmit_mode : (s.transmit bs).mode = s.mode := rfl
@[simp] theorem State.transmit_remaining : (s.transmit bs).remaining = s.remaining := rfl
@[simp] theorem State.transmit_count : (s.transmit bs).count = s.count := rfl
@[simp] theorem State.transmit_buf : (s.transmit bs).buf = s.buf := rfl
@[simp] theorem State.transmit_armed : (s.transmit bs).armed = s.armed := rfl
@[simp] theorem State.transmit_slotReset : (s.transmit bs).slotReset = s.slotReset := rfl
@[simp] theorem State.transmit_slotSysex : (s.transmit bs).slotSysex = s.slotSysex := rfl
@[simp] theorem State.transmit_mbLen : (s.transmit bs).mbLen = s.mbLen := rfl
@[simp] theorem State.transmit_requests : (s.transmit bs).requests = s.requests := rfl
@[simp] theorem State.transmit_out : (s.transmit bs).out = s.out ++ bs.map .txByte := rfl
@[simp] theorem State.transmit_result : (s.transmit bs).result = s.result := rfl

@[simp] theorem State.answer_mode : (s.answer r).mode = s.mode := rfl
@[simp] theorem State.answer_remaining : (s.answer r).remaining = s.remaining := rfl
@[simp] theorem State.answer_count : (s.answer r).count = s.count := rfl
@[simp] theorem State.answer_buf : (s.answer r).buf = s.buf := rfl
@[simp] theorem State.answer_armed : (s.answer r).armed = s.armed := rfl
@[simp] theorem State.answer_slotReset : (s.answer r).slotReset = s.slotReset := rfl
@[simp] theorem State.answer_slotSysex : (s.answer r).slotSysex = s.slotSysex := rfl
@[simp] theorem State.answer_mbLen : (s.answer r).mbLen = s.mbLen := rfl
@[simp] theorem State.answer_requests : (s.answer r).requests = s.requests := rfl
@[simp] theorem State.answer_out : (s.answer r).out = s.out := rfl
@[simp] theorem State.answer_result : (s.answer r).result = some r := rfl

@[simp] theorem State.setSlot_systemReset_mode : (s.setSlot .systemReset v).mode = s.mode := rfl
@[simp] theorem State.setSlot_systemReset_remaining : (s.setSlot .systemReset v).remaining = s.remaining := rfl
@[simp] theorem State.setSlot_systemReset_count : (s.setSlot .systemReset v).count = s.count := rfl
@[simp] theorem State.setSlot_systemReset_buf : (s.setSlot .systemReset v).buf = s.buf := rfl
@[simp] theorem State.setSlot_systemReset_armed : (s.setSlot .systemReset v).armed = s.armed := rfl
@[simp] theorem State.setSlot_systemReset_slotReset : (s.setSlot .systemReset v).slotReset = v := rfl
@[simp] theorem State.setSlot_systemReset_slotSysex : (s.setSlot .systemReset v).slotSysex = s.slotSysex := rfl
@[simp] theorem State.setSlot_systemReset_mbLen : (s.setSlot .systemReset v).mbLen = s.mbLen := rfl
@[simp] theorem State.setSlot_systemReset_requests : (s.setSlot .systemReset v).requests = s.requests := rfl
@[simp] theorem State.setSlot_systemReset_out : (s.setSlot .systemReset v).out = s.out := rfl
@[simp] theorem State.setSlot_systemReset_result : (s.setSlot .systemReset v).result = s.result := rfl

@[simp] theorem State.setSlot_sysex_mode : (s.setSlot .sysex v).mode = s.mode := rfl
@[simp] theorem State.setSlot_sysex_remaining : (s.setSlot .sysex v).remaining = s.remaining := rfl
@[simp] theorem State.setSlot_sysex_count : (s.setSlot .sysex v).count = s.count := rfl
@[simp] theorem State.setSlot_sysex_buf : (s.setSlot .sysex v).buf = s.buf := rfl
@[simp] theorem State.setSlot_sysex_armed : (s.setSlot .sysex v).armed = s.armed := rfl
@[simp] theorem State.setSlot_sysex_slotReset : (s.setSlot .sysex v).slotReset = s.slotReset := rfl
@[simp] theorem State.setSlot_sysex_slotSysex : (s.setSlot .sysex v).slotSysex = v := rfl
@[simp] theorem State.setSlot_sysex_mbLen : (s.setSlot .sysex v).mbLen = s.mbLen := rfl
@[simp] theorem State.setSlot_sysex_requests : (s.setSlot .sysex v).requests = s.requests := rfl
@[simp] theorem State.setSlot_sysex_out : (s.setSlot .sysex v).out = s.out := rfl
@[simp] theorem State.setSlot_sysex_result : (s.setSlot .sysex v).result = s.result := rfl

@[simp] theorem State.doReset_mode : (s.doReset).mode = .idle := rfl
@[simp] theorem State.doReset_remaining : (s.doReset).remaining = 0 := rfl
@[simp] theorem State.doReset_count : (s.doReset).count = 0 := rfl
@[simp] theorem State.doReset_buf : (s.doReset).buf = Memory.zeroed := rfl
@[simp] theorem State.doReset_armed : (s.doReset).armed = 0x00#8 := rfl
@[simp] theorem State.doReset_slotReset : (s.doReset).slotReset = s.slotReset := rfl
@[simp] theorem State.doReset_slotSysex : (s.doReset).slotSysex = s.slotSysex := rfl
@[simp] theorem State.doReset_mbLen : (s.doReset).mbLen = s.mbLen := rfl
@[simp] theorem State.doReset_requests : (s.doReset).requests = s.requests := rfl
@[simp] theorem State.doReset_out : (s.doReset).out = s.out ++ resetEvents s.slotReset := rfl
@[simp] theorem State.doReset_result : (s.doReset).result = s.result := rfl

@[simp] theorem State.request_mode : (s.request q).mode = s.mode := rfl
@[simp] theorem State.request_remaining : (s.request q).remaining = s.remaining := rfl
@[simp] theorem State.request_count : (s.request q).count = s.count := rfl
@[simp] theorem State.request_buf : (s.request q).buf = s.buf := rfl
@[simp] theorem State.request_armed : (s.request q).armed = s.armed := rfl
@[simp] theorem State.request_slotReset : (s.request q).slotReset = s.slotReset := rfl
@[simp] theorem State.request_slotSysex : (s.request q).slotSysex = s.slotSysex := rfl
@[simp] theorem State.request_mbLen : (s.request q).mbLen = s.mbLen := rfl
@[simp] theorem State.request_requests : (s.request q).requests = q :: s.requests := rfl
@[simp] theorem State.request_out : (s.request q).out = s.out := rfl
@[simp] theorem State.request_result : (s.request q).result = s.result := rfl

@[simp] theorem State.ctx_mode : s.ctx.mode = s.mode := rfl
@[simp] theorem State.ctx_count : s.ctx.count = s.count := rfl
@[simp] theorem State.ctx_remaining : s.ctx.remaining = s.remaining := rfl
@[simp] theorem State.ctx_mbLen : s.ctx.mbLen = s.mbLen := rfl

theorem State.reset_eq : State.reset = State.constructed Config.coreTable := rfl

end

end Sys2Proof.Machine
end

