-- ==== Sys2Proof/Laws/Flags.lean ====
section
/-! SUPPORT. What each row condition says of the state. -/

namespace Sys2Proof.Machine

variable (s : State) (b : Byte)

@[simp] theorem inFrame_iff : inFrame s.ctx = true ↔ s.mode = .inSysex := decide_eq_true_iff

@[simp] theorem frameNotEmpty_iff :
    frameNotEmpty s.ctx = true ↔ s.mode = .inSysex ∧ 1 ≤ s.count := by
  rw [frameNotEmpty, Bool.and_eq_true, inFrame_iff, decide_eq_true_iff]
  exact Iff.rfl

@[simp] theorem frameEmpty_iff : frameEmpty s.ctx = true ↔ s.mode = .inSysex ∧ s.count = 0 := by
  rw [frameEmpty, Bool.and_eq_true, inFrame_iff, decide_eq_true_iff]
  exact Iff.rfl

@[simp] theorem frameHasRoom_iff :
    frameHasRoom s.ctx = true ↔ s.mode = .inSysex ∧ s.count < Config.capacity := by
  rw [frameHasRoom, Bool.and_eq_true, inFrame_iff, decide_eq_true_iff]
  exact Iff.rfl

@[simp] theorem frameFull_iff :
    frameFull s.ctx = true ↔ s.mode = .inSysex ∧ s.count = Config.capacity := by
  rw [frameFull, Bool.and_eq_true, inFrame_iff, decide_eq_true_iff]
  exact Iff.rfl

@[simp] theorem awaitsMore_iff : awaitsMore s.ctx = true ↔ s.mode = .awaitMB ∧ 1 < s.remaining := by
  rw [awaitsMore, Bool.and_eq_true, decide_eq_true_iff, decide_eq_true_iff]
  exact Iff.rfl

@[simp] theorem awaitsLast_iff : awaitsLast s.ctx = true ↔ s.mode = .awaitMB ∧ s.remaining = 1 := by
  rw [awaitsLast, Bool.and_eq_true, decide_eq_true_iff, decide_eq_true_iff]
  exact Iff.rfl

@[simp] theorem commandPosition_iff :
    commandPosition s.ctx b = true ↔ s.mode = .idle ∨ (s.mode = .awaitMB ∧ isData b = false) := by
  rw [commandPosition, Bool.or_eq_true, Bool.and_eq_true, decide_eq_true_iff, decide_eq_true_iff,
    Bool.not_eq_true']
  exact Iff.rfl

theorem armsWait_iff :
    armsWait s.ctx b = true ↔ commandPosition s.ctx b = true ∧ 0 < armedLength s.mbLen b := by
  rw [armsWait, Bool.and_eq_true, decide_eq_true_iff]
  exact Iff.rfl

theorem ignoredHere_iff :
    ignoredHere s.ctx b = true ↔ commandPosition s.ctx b = true ∧ armedLength s.mbLen b = 0 := by
  rw [ignoredHere, Bool.and_eq_true, decide_eq_true_iff]
  exact Iff.rfl

@[simp] theorem framePayloadByte_iff : framePayloadByte b = true ↔ b ≠ 0xF7#8 ∧ b ≠ 0xFF#8 := by
  simp [framePayloadByte, Config.endSysexByte, Config.systemResetByte]

@[simp] theorem armingByte_iff : armingByte b = true ↔ b ≠ 0xF0#8 ∧ b ≠ 0xFF#8 := by
  simp [armingByte, Config.startSysexByte, Config.systemResetByte]

theorem isData_false_iff : isData b = false ↔ 128 ≤ b.toNat := by
  rw [← Bool.not_eq_true, isData_iff]
  omega

end Sys2Proof.Machine
end

