-- ==== Sys2Proof/Laws/Memory.lean ====
section
/-! SUPPORT. The laws of the buffer: every operation keeps the canonical form, a read after a write, and
canonical buffers that read alike are equal. -/

namespace Sys2Proof.Machine.Memory

@[simp] theorem read_nil (i : Nat) : read [] i = 0x00#8 := rfl

@[simp] theorem read_zeroed (i : Nat) : read zeroed i = 0x00#8 := rfl

theorem wf_zeroed : wf zeroed = true := rfl

theorem wfFrom_cons {lo k : Nat} {v : Byte} {rest : Memory} :
    wfFrom lo ((k, v) :: rest) = true ↔
      lo ≤ k ∧ k < Config.capacity ∧ v ≠ unlisted ∧ wfFrom (k + 1) rest = true := by
  simp [wfFrom, and_assoc]

theorem wfFrom_mono {lo lo' : Nat} {m : Memory} (hlo : lo' ≤ lo) (h : wfFrom lo m = true) :
    wfFrom lo' m = true := by
  cases m with
  | nil => rfl
  | cons c rest =>
    obtain ⟨k, v⟩ := c
    rw [wfFrom_cons] at h ⊢
    exact ⟨by omega, h.2⟩

/-- Below the first index everything is unlisted. -/
theorem read_below {lo i : Nat} {m : Memory} (h : wfFrom lo m = true) (hi : i < lo) :
    read m i = unlisted := by
  induction m generalizing lo with
  | nil => rfl
  | cons c rest ih =>
    obtain ⟨k, v⟩ := c
    rw [wfFrom_cons] at h
    have hk : k ≠ i := by omega
    simp [read, hk, ih h.2.2.2 (by omega)]

/-- A canonical buffer lists no index of 32 or more. -/
theorem read_above {lo i : Nat} {m : Memory} (h : wfFrom lo m = true) (hi : Config.capacity ≤ i) :
    read m i = unlisted := by
  induction m generalizing lo with
  | nil => rfl
  | cons c rest ih =>
    obtain ⟨k, v⟩ := c
    rw [wfFrom_cons] at h
    have hk : k ≠ i := by omega
    simp [read, hk, ih h.2.2.2]

theorem wfFrom_cons_op {lo i : Nat} {b : Byte} {rest : Memory} (hlo : lo ≤ i)
    (hi : i < Config.capacity) (h : wfFrom (i + 1) rest = true) : wfFrom lo (cons i b rest) = true := by
  unfold cons
  split
  · exact wfFrom_mono (by omega) h
  · exact wfFrom_cons.2 ⟨hlo, hi, ‹_›, h⟩

theorem read_cons_same {i : Nat} {b : Byte} {rest : Memory} (h : wfFrom (i + 1) rest = true) :
    read (cons i b rest) i = b := by
  unfold cons
  split
  · rw [read_below h (by omega), ‹b = _›]
  · simp [read]

theorem read_cons_other {i j : Nat} {b : Byte} {rest : Memory} (hj : j ≠ i) :
    read (cons i b rest) j = read rest j := by
  unfold cons
  split
  · rfl
  · simp [read, hj.symm]

theorem wfFrom_write {lo i : Nat} {b : Byte} {m : Memory} (hlo : lo ≤ i) (hi : i < Config.capacity)
    (h : wfFrom lo m = true) : wfFrom lo (write m i b) = true := by
  induction m generalizing lo with
  | nil => exact wfFrom_cons_op hlo hi rfl
  | cons c rest ih =>
    obtain ⟨k, v⟩ := c
    have hc := wfFrom_cons.1 h
    unfold write
    split
    · exact wfFrom_cons_op hlo hi (wfFrom_cons.2 ⟨by omega, hc.2⟩)
    · split
      · exact wfFrom_cons_op hlo hi (by rw [‹i = k›]; exact hc.2.2.2)
      · exact wfFrom_cons.2 ⟨hc.1, hc.2.1, hc.2.2.1, ih (by omega) hc.2.2.2⟩

/-- A write keeps the canonical form. -/
theorem wf_write {i : Nat} {b : Byte} {m : Memory} (hi : i < Config.capacity) (h : wf m = true) :
    wf (write m i b) = true := wfFrom_write (Nat.zero_le i) hi h

theorem readFrom_write_same {lo i : Nat} {b : Byte} {m : Memory} (h : wfFrom lo m = true) :
    read (write m i b) i = b := by
  induction m generalizing lo with
  | nil => exact read_cons_same rfl
  | cons c rest ih =>
    obtain ⟨k, v⟩ := c
    have hc := wfFrom_cons.1 h
    unfold write
    split
    · exact read_cons_same (wfFrom_cons.2 ⟨by omega, hc.2⟩)
    · split
      · exact read_cons_same (by rw [‹i = k›]; exact hc.2.2.2)
      · have hk : k ≠ i := fun e => absurd e.symm ‹_›
        simp [read, hk, ih hc.2.2.2]

/-- A read after a write to the same cell gives the value written. -/
theorem read_write_same {i : Nat} {b : Byte} {m : Memory} (h : wf m = true) :
    read (write m i b) i = b := readFrom_write_same h

/-- A write leaves every other cell alone, in any list. -/
theorem read_write_other {i j : Nat} {b : Byte} {m : Memory} (hj : j ≠ i) :
    read (write m i b) j = read m j := by
  induction m with
  | nil => exact read_cons_other hj
  | cons c rest ih =>
    obtain ⟨k, v⟩ := c
    unfold write
    split
    · exact read_cons_other hj
    · split
      · rw [read_cons_other hj]
        have hk : k ≠ j := by omega
        simp [read, hk]
      · by_cases hk : k = j <;> simp [read, hk, ih]

theorem read_write {i j : Nat} {b : Byte} {m : Memory} (h : wf m = true) :
    read (write m i b) j = if j = i then b else read m j := by
  split
  · rw [‹j = i›, read_write_same h]
  · exact read_write_other ‹_›

theorem ext_from {lo : Nat} {m m' : Memory} (h : wfFrom lo m = true) (h' : wfFrom lo m' = true)
    (heq : ∀ i, read m i = read m' i) : m = m' := by
  induction m generalizing lo m' with
  | nil =>
    cases m' with
    | nil => rfl
    | cons c rest =>
      obtain ⟨k, v⟩ := c
      have := heq k
      simp only [read, if_true] at this
      exact absurd this.symm (wfFrom_cons.1 h').2.2.1
  | cons c rest ih =>
    obtain ⟨k, v⟩ := c
    have hc := wfFrom_cons.1 h
    cases m' with
    | nil =>
      have := heq k
      simp only [read, if_true] at this
      exact absurd this hc.2.2.1
    | cons c' rest' =>
      obtain ⟨k', v'⟩ := c'
      have hc' := wfFrom_cons.1 h'
      have hk : k = k' := by
        rcases Nat.lt_trichotomy k k' with hlt | he | hgt
        · have := heq k
          rw [read_below (wfFrom_cons.2 ⟨Nat.le_refl k', hc'.2⟩) hlt] at this
          simp only [read, if_true] at this
          exact absurd this hc.2.2.1
        · exact he
        · have := heq k'
          rw [read_below (wfFrom_cons.2 ⟨Nat.le_refl k, hc.2⟩) hgt] at this
          simp only [read, if_true] at this
          exact absurd this.symm hc'.2.2.1
      subst hk
      have hv : v = v' := by simpa [read] using heq k
      subst hv
      congr 1
      refine ih hc.2.2.2 hc'.2.2.2 fun i => ?_
      by_cases hi : k = i
      · subst hi
        rw [read_below hc.2.2.2 (by omega), read_below hc'.2.2.2 (by omega)]
      · simpa [read, hi] using heq i

/-- Canonical buffers that read alike are equal data. -/
theorem ext {m m' : Memory} (h : wf m = true) (h' : wf m' = true)
    (heq : ∀ i, read m i = read m' i) : m = m' := ext_from h h' heq

@[simp] theorem length_slice (m : Memory) (lo hi : Nat) : (slice m lo hi).length = hi - lo := by
  simp [slice]

/-- A slice depends on its cells only. -/
theorem slice_congr {m m' : Memory} {lo hi : Nat} (h : ∀ i, lo ≤ i → i < hi → read m i = read m' i) :
    slice m lo hi = slice m' lo hi := by
  refine List.map_congr_left fun i hi' => h i ?_ ?_ <;>
    · have := List.mem_range'_1.1 hi'
      omega

end Sys2Proof.Machine.Memory
end

