-- ==== Sys2Proof/Laws/Ops.lean ====
section
/-! SUPPORT. What each shared operation can do, said once. -/

namespace Sys2Proof.Machine

/-- A row that answers a next state was selected. -/
theorem select_next {c : Bool} {r : Result} {t : State} :
    select c r = .next t ↔ c = true ∧ r = .next t := by
  cases c <;> simp [select]

/-- A row never faults where it is not selected. -/
theorem select_fault {c : Bool} {r : Result} {f : Fault} :
    select c r = .fault f ↔ c = true ∧ r = .fault f := by
  cases c <;> simp [select]

/-- A store that goes on wrote an existing cell. -/
theorem store_next {s t : State} {i : Nat} {b : Byte} {k : State → Result} :
    s.store i b k = .next t ↔ i < Config.capacity ∧ k { s with buf := s.buf.write i b } = .next t := by
  unfold State.store
  split <;> simp_all

/-- A load that goes on read existing cells. -/
theorem load_next {s t : State} {lo hi : Nat} {k : List Byte → Result} :
    s.load lo hi k = .next t ↔ hi ≤ Config.capacity ∧ k (s.buf.slice lo hi) = .next t := by
  unfold State.load
  split <;> simp_all

/-- An ignored byte that goes on was selected, and left the state as it is. -/
theorem ignoreByte_next {s t : State} {b : Byte} :
    ignoreByte s b = .next t ↔ ignoredHere s.ctx b = true ∧ s = t := by
  simp [ignoreByte, select_next]

/-- The sysex dispatch either finds the slot empty and leaves the state, or emits one callback. -/
theorem dispatchSysex_next {s t : State} :
    s.dispatchSysex = .next t ↔
      (s.slotSysex = none ∧ s = t) ∨
        ∃ h, s.slotSysex = some h ∧ s.count ≤ Config.capacity ∧
          s.emit (.sysexCallback h (s.cell 0) (s.count - 1) (s.buf.slice 1 s.count)) = t := by
  unfold State.dispatchSysex
  split <;> simp_all [load_next]

@[simp] theorem resetEvents_none : resetEvents none = [] := rfl
@[simp] theorem resetEvents_some (h : HandlerId) : resetEvents (some h) = [.resetCallback h] := rfl

/-- `do_reset` establishes the invariant from any state (R150, R27). -/
theorem doReset_inv (s : State) : s.doReset.Inv :=
  ⟨fun h => by simp at h, fun _ => ⟨rfl, rfl⟩, Nat.zero_le _, rfl⟩

/-- Every cell is zero after `do_reset` (R150). -/
@[simp] theorem cell_doReset (s : State) (i : Nat) : s.doReset.cell i = 0x00#8 := rfl

/-- A fetch takes the first request and nothing else. -/
theorem fetch_some {s t : State} {r : Request} :
    s.fetch = some (r, t) ↔ ∃ rest, s.requests = r :: rest ∧ t = { s with requests := rest } := by
  unfold State.fetch
  split <;> simp_all [eq_comm]

theorem fetch_none {s : State} : s.fetch = none ↔ s.requests = [] := by
  unfold State.fetch
  split <;> simp_all

/-- Decoding a request gives the decoder's row or the refusal `undecodable`. -/
theorem decodeNext_ok {s : State} {r : Request} {i : Instr} :
    s.decodeNext r = .ok i ↔ decode s.ctx r = .ok i := by
  unfold State.decodeNext
  split <;> simp_all

/-- What a step that goes on can have done: held the state, or performed the decoded request. -/
theorem step_next {s t : State} :
    step s = .next t ↔
      s.Inv ∧ ((s.requests = [] ∧ s = t) ∨
        ∃ r rest i, s.requests = r :: rest ∧ decode s.ctx r = .ok i ∧
          exec i { s with requests := rest } = .next t) := by
  unfold step
  split
  · rename_i h
    rw [and_iff_right h]
    cases hq : s.requests with
    | nil => simp [State.fetch, hq, State.idleStep]
    | cons r rest =>
      have hc : State.ctx { s with requests := rest } = s.ctx := rfl
      simp only [State.fetch, hq]
      cases hd : decode s.ctx r with
      | ok i => simp [State.decodeNext, hc, hd]
      | error e => cases e; simp [State.decodeNext, hc, hd]
  · rename_i h
    exact ⟨(fun e => by cases e), fun e => absurd e.1 h⟩

end Sys2Proof.Machine
end

