-- ==== Sys2Proof/Laws/Exec.lean ====
section
/-! SUPPORT. The effect of an instruction that answers a next state, said once, as a relation with one case for each
shape of effect; and the inversion lemma of `exec`. -/

namespace Sys2Proof.Machine

/-- The byte of a row that is accepted and ignored; none for every other row (R101, R102). -/
def ignoredRowByte : Instr → Option Byte
  | .cmd00 channel => some (channelByte 0x0#4 channel)
  | .cmd10 channel => some (channelByte 0x1#4 channel)
  | .cmd20 channel => some (channelByte 0x2#4 channel)
  | .cmd30 channel => some (channelByte 0x3#4 channel)
  | .cmd40 channel => some (channelByte 0x4#4 channel)
  | .cmd50 channel => some (channelByte 0x5#4 channel)
  | .cmd60 channel => some (channelByte 0x6#4 channel)
  | .cmd70 channel => some (channelByte 0x7#4 channel)
  | .cmd80 channel => some (channelByte 0x8#4 channel)
  | .cmd90 channel => some (channelByte 0x9#4 channel)
  | .cmdA0 channel => some (channelByte 0xA#4 channel)
  | .cmdB0 channel => some (channelByte 0xB#4 channel)
  | .cmdC0 channel => some (channelByte 0xC#4 channel)
  | .cmdD0 channel => some (channelByte 0xD#4 channel)
  | .cmdE0 channel => some (channelByte 0xE#4 channel)
  | .sysF1 => some (systemByte 0x1#4)
  | .sysF2 => some (systemByte 0x2#4)
  | .sysF3 => some (systemByte 0x3#4)
  | .sysF4 => some (systemByte 0x4#4)
  | .sysF5 => some (systemByte 0x5#4)
  | .sysF6 => some (systemByte 0x6#4)
  | .sysF7 => some (systemByte 0x7#4)
  | .sysF8 => some (systemByte 0x8#4)
  | .sysF9 => some (systemByte 0x9#4)
  | .sysFA => some (systemByte 0xA#4)
  | .sysFB => some (systemByte 0xB#4)
  | .sysFC => some (systemByte 0xC#4)
  | .sysFD => some (systemByte 0xD#4)
  | .sysFE => some (systemByte 0xE#4)
  | _ => none

/-- The value of a function row; none for every other row, and for a payload that is no sequence of pairs. -/
def functionValue : Instr → Option FuncResult
  | .classify b => some (.classified (classify b).command (classify b).channel)
  | .isData b => some (.dataTest (isData b))
  | .enc7 v => some (.pair (enc7 v).1 (enc7 v).2)
  | .dec7 lsb msb => some (.value (dec7 lsb msb))
  | .decodePayload data => (decodePayload data).map .values
  | _ => none

/-- The shapes of effect an instruction can have on a state. Each case carries what its row's selection
guarantees. -/
inductive Effect (s : State) : Instr → State → Prop where
  /-- `do_reset`, silent or with its callback. -/
  | sxReset (hm : s.mode = .inSysex) : Effect s .sxReset s.doReset
  | systemReset (hp : commandPosition s.ctx Config.systemResetByte = true) : Effect s .systemReset s.doReset
  | reset : Effect s .reset s.doReset
  | doReset : Effect s .doReset s.doReset
  | overflow (b : Byte) (hm : s.mode = .inSysex) (hc : s.count = Config.capacity)
      (hb : framePayloadByte b = true) : Effect s (.sxDataOvf b) (s.emit .overflow).doReset
  /-- The end of a frame. -/
  | endSilent (hm : s.mode = .inSysex) (hc : 1 ≤ s.count) (hs : s.slotSysex = none) :
      Effect s .sxEnd { s with mode := .idle }
  | endDelivered (h : HandlerId) (hm : s.mode = .inSysex) (hc : 1 ≤ s.count) (hc' : s.count ≤ Config.capacity)
      (hs : s.slotSysex = some h) :
      Effect s .sxEnd
        (State.emit { s with mode := .idle }
          (.sysexCallback h (s.cell 0) (s.count - 1) (s.buf.slice 1 s.count)))
  | endEmpty (hm : s.mode = .inSysex) (hc : s.count = 0) :
      Effect s .sxEndEmpty (State.emit { s with mode := .idle } .emptyFrame)
  /-- Stored bytes. -/
  | stored (b : Byte) (hm : s.mode = .inSysex) (hc : s.count < Config.capacity)
      (hb : framePayloadByte b = true) :
      Effect s (.sxData b) { s with buf := s.buf.write s.count b, count := s.count + 1 }
  | awaited (d : Septet) (hm : s.mode = .awaitMB) (hr : 1 < s.remaining) (hi : s.remaining - 1 < Config.capacity) :
      Effect s (.mbData d)
        { s with buf := s.buf.write (s.remaining - 1) (dataByte d), remaining := s.remaining - 1 }
  | completed (d : Septet) (hm : s.mode = .awaitMB) (hr : s.remaining = 1) :
      Effect s (.mbDataLast d)
        (State.emit
          { s with
            buf := s.buf.write 0 (dataByte d), remaining := 0, mode := .idle, armed := 0x00#8 }
          (.multiByteComplete s.armed
            (Memory.slice (s.buf.write 0 (dataByte d)) 0 (armedLength s.mbLen s.armed))))
  /-- Command position. -/
  | opened (hp : commandPosition s.ctx Config.startSysexByte = true) :
      Effect s .startSysex { s with mode := .inSysex, count := 0, remaining := 0, armed := 0x00#8 }
  | armed (b : Byte) (hp : armsWait s.ctx b = true) (hb : armingByte b = true) :
      Effect s (.arm b) { s with mode := .awaitMB, remaining := armedLength s.mbLen b, armed := b }
  | ignored (i : Instr) (b : Byte) (hi : ignoredRowByte i = some b) (hp : ignoredHere s.ctx b = true) :
      Effect s i s
  /-- Host and function rows. -/
  | slot (i : Instr) (cat : Category) (v : Option HandlerId) (hw : writesSlot i = some cat) :
      Effect s i (s.setSlot cat v)
  | sent (cmd : Byte) (vals : List Word16) (hc : isData cmd = true) :
      Effect s (.sendSysex cmd vals) (s.transmit (frameBytes cmd vals))
  | refusedCommand (cmd : Byte) (vals : List Word16) (hc : isData cmd = false) :
      Effect s (.sendSysexBad cmd vals) (s.emit (.txBadCommand cmd))
  | answered (i : Instr) (r : FuncResult) (hv : functionValue i = some r) : Effect s i (s.answer r)

/-- An ignored byte's effect. -/
theorem ignoreByte_effect {s t : State} {i : Instr} {b : Byte} (hi : ignoredRowByte i = some b)
    (h : ignoreByte s b = .next t) : Effect s i t := by
  obtain ⟨hp, rfl⟩ := ignoreByte_next.1 h
  exact .ignored i b hi hp

/-- What an instruction that answers a next state did. -/
theorem exec_effect {i : Instr} {s t : State} (h : exec i s = .next t) : Effect s i t := by
  cases i with
  | sxReset =>
    obtain ⟨hc, he⟩ := select_next.1 h
    cases he
    exact .sxReset ((inFrame_iff s).1 hc)
  | sxEnd =>
    obtain ⟨hc, he⟩ := select_next.1 h
    replace hc := (frameNotEmpty_iff s).1 hc
    rcases dispatchSysex_next.1 he with ⟨hs, rfl⟩ | ⟨g, hs, hle, rfl⟩
    · exact .endSilent hc.1 hc.2 hs
    · exact .endDelivered g hc.1 hc.2 hle hs
  | sxEndEmpty =>
    obtain ⟨hc, he⟩ := select_next.1 h
    replace hc := (frameEmpty_iff s).1 hc
    cases he
    exact .endEmpty hc.1 hc.2
  | sxData b =>
    obtain ⟨hc, he⟩ := select_next.1 h
    rw [Bool.and_eq_true, frameHasRoom_iff] at hc
    obtain ⟨_, he⟩ := store_next.1 he
    cases he
    exact .stored b hc.1.1 hc.1.2 hc.2
  | sxDataOvf b =>
    obtain ⟨hc, he⟩ := select_next.1 h
    rw [Bool.and_eq_true, frameFull_iff] at hc
    cases he
    exact .overflow b hc.1.1 hc.1.2 hc.2
  | mbData d =>
    obtain ⟨hc, he⟩ := select_next.1 h
    replace hc := (awaitsMore_iff s).1 hc
    obtain ⟨hi, he⟩ := store_next.1 he
    cases he
    exact .awaited d hc.1 hc.2 hi
  | mbDataLast d =>
    obtain ⟨hc, he⟩ := select_next.1 h
    replace hc := (awaitsLast_iff s).1 hc
    obtain ⟨_, he⟩ := store_next.1 he
    obtain ⟨_, he⟩ := load_next.1 he
    cases he
    exact .completed d hc.1 hc.2
  | startSysex =>
    obtain ⟨hc, he⟩ := select_next.1 h
    cases he
    exact .opened hc
  | systemReset =>
    obtain ⟨hc, he⟩ := select_next.1 h
    cases he
    exact .systemReset hc
  | arm b =>
    obtain ⟨hc, he⟩ := select_next.1 h
    rw [Bool.and_eq_true] at hc
    cases he
    exact .armed b hc.1 hc.2
  | reset => cases h; exact .reset
  | doReset => cases h; exact .doReset
  | attach cat g => cases h; exact .slot _ cat (some g) rfl
  | detach cat => cases h; exact .slot _ cat none rfl
  | onSystemReset g => cases h; exact .slot _ .systemReset (some g) rfl
  | onSysex g => cases h; exact .slot _ .sysex (some g) rfl
  | sendSysex cmd vals =>
    obtain ⟨hc, he⟩ := select_next.1 h
    cases he
    exact .sent cmd vals hc
  | sendSysexBad cmd vals =>
    obtain ⟨hc, he⟩ := select_next.1 h
    cases he
    exact .refusedCommand cmd vals (by simpa using hc)
  | classify b => cases h; exact .answered _ _ rfl
  | isData b => cases h; exact .answered _ _ rfl
  | enc7 v => cases h; exact .answered _ _ rfl
  | dec7 lsb msb => cases h; exact .answered _ _ rfl
  | decodePayload data =>
    simp only [exec, execDecodePayload] at h
    split at h
    · rename_i vs hv
      cases h
      exact .answered _ _ (by simp [functionValue, hv])
    · cases h
  | _ => exact ignoreByte_effect rfl h

end Sys2Proof.Machine
end

