-- ==== Sys2Proof/Laws/PerInstr.lean ====
section
/-! SUPPORT. The per-instruction family `EncodingMatchesRow`: the byte the encoder gives a well-formed wire
instruction matches a row of the opcode table, and that row builds the instruction back from it. -/

namespace Sys2Proof.Laws.EncodingMatchesRow

open Sys2Proof.Machine

/-- The encoder's byte of a well-formed instruction matches the pattern of a row of the opcode table that
builds the instruction (R73); an instruction without an encoding has no byte. -/
def Statement (i : Instr) : Prop :=
  i.WellFormed = true → ∀ b, encodeByte i = some b →
    ∃ r ∈ wireTable, (b &&& r.mask) = r.pattern ∧ r.build b = i

/-- A row of the table, given by its place, settles an instruction's statement. -/
theorem of_row {i : Instr} {b : Byte} (n : Nat) (r : TableRow) (he : encodeByte i = some b)
    (hr : wireTable[n]? = some r) (hm : (b &&& r.mask) = r.pattern) (hb : r.build b = i) : Statement i := by
  intro _ b' hb'
  obtain rfl : b = b' := Option.some.inj (he.symm.trans hb')
  exact ⟨r, List.mem_of_getElem? hr, hm, hb⟩

/-- An instruction without an encoding satisfies its statement. -/
theorem of_none {i : Instr} (he : encodeByte i = none) : Statement i := by
  intro _ b hb
  rw [he] at hb
  cases hb

theorem dataByte_mask (d : Septet) : dataByte d &&& 0x80#8 = 0x00#8 := by
  revert d; decide

theorem sxReset : Statement .sxReset :=
  of_row 0 _ rfl rfl rfl rfl

theorem sxEnd : Statement .sxEnd :=
  of_row 1 _ rfl rfl rfl rfl

theorem sxEndEmpty : Statement .sxEndEmpty :=
  of_row 2 _ rfl rfl rfl rfl

theorem sxData (b : Byte) : Statement (.sxData b) :=
  of_row 3 _ rfl rfl (BitVec.and_zero) rfl

theorem sxDataOvf (b : Byte) : Statement (.sxDataOvf b) :=
  of_row 4 _ rfl rfl (BitVec.and_zero) rfl

theorem mbData (d : Septet) : Statement (.mbData d) :=
  of_row 5 _ rfl rfl (dataByte_mask d) (congrArg Instr.mbData (dataField_dataByte d))

theorem mbDataLast (d : Septet) : Statement (.mbDataLast d) :=
  of_row 6 _ rfl rfl (dataByte_mask d) (congrArg Instr.mbDataLast (dataField_dataByte d))

theorem startSysex : Statement .startSysex :=
  of_row 7 _ rfl rfl rfl rfl

theorem systemReset : Statement .systemReset :=
  of_row 8 _ rfl rfl rfl rfl

theorem arm (b : Byte) : Statement (.arm b) :=
  of_row 9 _ rfl rfl (BitVec.and_zero) rfl

theorem cmd00 (channel : Nibble) : Statement (.cmd00 channel) :=
  of_row 10 _ rfl rfl (highNibble_channelByte 0x0#4 channel)
    (congrArg Instr.cmd00 (channelField_channelByte 0x0#4 channel))

theorem cmd10 (channel : Nibble) : Statement (.cmd10 channel) :=
  of_row 11 _ rfl rfl (highNibble_channelByte 0x1#4 channel)
    (congrArg Instr.cmd10 (channelField_channelByte 0x1#4 channel))

theorem cmd20 (channel : Nibble) : Statement (.cmd20 channel) :=
  of_row 12 _ rfl rfl (highNibble_channelByte 0x2#4 channel)
    (congrArg Instr.cmd20 (channelField_channelByte 0x2#4 channel))

theorem cmd30 (channel : Nibble) : Statement (.cmd30 channel) :=
  of_row 13 _ rfl rfl (highNibble_channelByte 0x3#4 channel)
    (congrArg Instr.cmd30 (channelField_channelByte 0x3#4 channel))

theorem cmd40 (channel : Nibble) : Statement (.cmd40 channel) :=
  of_row 14 _ rfl rfl (highNibble_channelByte 0x4#4 channel)
    (congrArg Instr.cmd40 (channelField_channelByte 0x4#4 channel))

theorem cmd50 (channel : Nibble) : Statement (.cmd50 channel) :=
  of_row 15 _ rfl rfl (highNibble_channelByte 0x5#4 channel)
    (congrArg Instr.cmd50 (channelField_channelByte 0x5#4 channel))

theorem cmd60 (channel : Nibble) : Statement (.cmd60 channel) :=
  of_row 16 _ rfl rfl (highNibble_channelByte 0x6#4 channel)
    (congrArg Instr.cmd60 (channelField_channelByte 0x6#4 channel))

theorem cmd70 (channel : Nibble) : Statement (.cmd70 channel) :=
  of_row 17 _ rfl rfl (highNibble_channelByte 0x7#4 channel)
    (congrArg Instr.cmd70 (channelField_channelByte 0x7#4 channel))

theorem cmd80 (channel : Nibble) : Statement (.cmd80 channel) :=
  of_row 18 _ rfl rfl (highNibble_channelByte 0x8#4 channel)
    (congrArg Instr.cmd80 (channelField_channelByte 0x8#4 channel))

theorem cmd90 (channel : Nibble) : Statement (.cmd90 channel) :=
  of_row 19 _ rfl rfl (highNibble_channelByte 0x9#4 channel)
    (congrArg Instr.cmd90 (channelField_channelByte 0x9#4 channel))

theorem cmdA0 (channel : Nibble) : Statement (.cmdA0 channel) :=
  of_row 20 _ rfl rfl (highNibble_channelByte 0xA#4 channel)
    (congrArg Instr.cmdA0 (channelField_channelByte 0xA#4 channel))

theorem cmdB0 (channel : Nibble) : Statement (.cmdB0 channel) :=
  of_row 21 _ rfl rfl (highNibble_channelByte 0xB#4 channel)
    (congrArg Instr.cmdB0 (channelField_channelByte 0xB#4 channel))

theorem cmdC0 (channel : Nibble) : Statement (.cmdC0 channel) :=
  of_row 22 _ rfl rfl (highNibble_channelByte 0xC#4 channel)
    (congrArg Instr.cmdC0 (channelField_channelByte 0xC#4 channel))

theorem cmdD0 (channel : Nibble) : Statement (.cmdD0 channel) :=
  of_row 23 _ rfl rfl (highNibble_channelByte 0xD#4 channel)
    (congrArg Instr.cmdD0 (channelField_channelByte 0xD#4 channel))

theorem cmdE0 (channel : Nibble) : Statement (.cmdE0 channel) :=
  of_row 24 _ rfl rfl (highNibble_channelByte 0xE#4 channel)
    (congrArg Instr.cmdE0 (channelField_channelByte 0xE#4 channel))

theorem sysF1 : Statement .sysF1 :=
  of_row 25 _ rfl rfl rfl rfl

theorem sysF2 : Statement .sysF2 :=
  of_row 26 _ rfl rfl rfl rfl

theorem sysF3 : Statement .sysF3 :=
  of_row 27 _ rfl rfl rfl rfl

theorem sysF4 : Statement .sysF4 :=
  of_row 28 _ rfl rfl rfl rfl

theorem sysF5 : Statement .sysF5 :=
  of_row 29 _ rfl rfl rfl rfl

theorem sysF6 : Statement .sysF6 :=
  of_row 30 _ rfl rfl rfl rfl

theorem sysF7 : Statement .sysF7 :=
  of_row 31 _ rfl rfl rfl rfl

theorem sysF8 : Statement .sysF8 :=
  of_row 32 _ rfl rfl rfl rfl

theorem sysF9 : Statement .sysF9 :=
  of_row 33 _ rfl rfl rfl rfl

theorem sysFA : Statement .sysFA :=
  of_row 34 _ rfl rfl rfl rfl

theorem sysFB : Statement .sysFB :=
  of_row 35 _ rfl rfl rfl rfl

theorem sysFC : Statement .sysFC :=
  of_row 36 _ rfl rfl rfl rfl

theorem sysFD : Statement .sysFD :=
  of_row 37 _ rfl rfl rfl rfl

theorem sysFE : Statement .sysFE :=
  of_row 38 _ rfl rfl rfl rfl

theorem reset : Statement .reset := of_none rfl

theorem attach (cat : Category) (h : HandlerId) : Statement (.attach cat h) := of_none rfl

theorem detach (cat : Category) : Statement (.detach cat) := of_none rfl

theorem sendSysex (cmd : Byte) (vals : List Word16) : Statement (.sendSysex cmd vals) := of_none rfl

theorem sendSysexBad (cmd : Byte) (vals : List Word16) : Statement (.sendSysexBad cmd vals) := of_none rfl

theorem onSystemReset (h : HandlerId) : Statement (.onSystemReset h) := of_none rfl

theorem onSysex (h : HandlerId) : Statement (.onSysex h) := of_none rfl

theorem classify (b : Byte) : Statement (.classify b) := of_none rfl

theorem isData (b : Byte) : Statement (.isData b) := of_none rfl

theorem enc7 (v : Word16) : Statement (.enc7 v) := of_none rfl

theorem dec7 (lsb msb : Septet) : Statement (.dec7 lsb msb) := of_none rfl

theorem decodePayload (data : List Byte) : Statement (.decodePayload data) := of_none rfl

theorem doReset : Statement .doReset := of_none rfl

end Sys2Proof.Laws.EncodingMatchesRow
end

