-- ==== Sys2Proof/Tests/Slice0.lean ====
section
/-! SUPPORT. The model's own tests: ill-formed terms are refused, every constructor's decoding from a word written
out from the spec's tables, one step each for the instructions on the vectors of 95_test_vectors.md, and a witness
for the hypotheses of every statement that has some. -/

namespace Sys2Proof.Tests

open Sys2Proof.Machine Sys2Proof.Claims

/-! ### Well-formedness refuses each ill-formed operand -/

theorem smoke_sxData_end : (Instr.sxData 0xF7#8).WellFormed = false := by decide
theorem smoke_sxData_reset : (Instr.sxData 0xFF#8).WellFormed = false := by decide
theorem smoke_sxDataOvf_end : (Instr.sxDataOvf 0xF7#8).WellFormed = false := by decide
theorem smoke_sxDataOvf_reset : (Instr.sxDataOvf 0xFF#8).WellFormed = false := by decide
theorem smoke_arm_start : (Instr.arm 0xF0#8).WellFormed = false := by decide
theorem smoke_arm_reset : (Instr.arm 0xFF#8).WellFormed = false := by decide
theorem smoke_sendSysex : (Instr.sendSysex 0x80#8 []).WellFormed = false := by decide
theorem smoke_sendSysexBad : (Instr.sendSysexBad 0x7F#8 []).WellFormed = false := by decide
theorem smoke_decodePayload_odd : (Instr.decodePayload [0x10#8]).WellFormed = false := by decide
theorem smoke_decodePayload_high : (Instr.decodePayload [0xF0#8, 0x90#8]).WellFormed = false := by decide

/-! ### Decoding, each word written out from Tables 30-A to 30-D -/

/-- The arming table of 95_test_vectors.md section 2.6. -/
def armingTable : Config.MbTable := [(0xE0#8, 2), (0x90#8, 1), (0xF4#8, 2), (0xC0#8, 32)]

/-- Decode a byte in the given context; the error is `none`. -/
def dec (m : Mode) (count remaining : Nat) (t : Config.MbTable) (b : Byte) : Option Instr :=
  (decodeByte ⟨m, count, remaining, t⟩ b).toOption

theorem decode_sxReset : dec .inSysex 2 0 [] 0b11111111#8 = some .sxReset := by decide
theorem decode_sxEnd : dec .inSysex 1 0 [] 0b11110111#8 = some .sxEnd := by decide
theorem decode_sxEndEmpty : dec .inSysex 0 0 [] 0b11110111#8 = some .sxEndEmpty := by decide
theorem decode_sxData : dec .inSysex 31 0 [] 0b11110000#8 = some (.sxData 0xF0#8) := by decide
theorem decode_sxDataOvf : dec .inSysex 32 0 [] 0b00100001#8 = some (.sxDataOvf 0x21#8) := by decide
theorem decode_mbData : dec .awaitMB 0 2 armingTable 0b01001000#8 = some (.mbData 0b1001000#7) := by decide
theorem decode_mbDataLast : dec .awaitMB 0 1 armingTable 0b00000001#8 = some (.mbDataLast 0b0000001#7) := by decide
theorem decode_startSysex : dec .idle 0 0 [] 0b11110000#8 = some .startSysex := by decide
theorem decode_startSysex_in_wait : dec .awaitMB 0 1 armingTable 0b11110000#8 = some .startSysex := by decide
theorem decode_systemReset : dec .idle 0 0 [] 0b11111111#8 = some .systemReset := by decide
theorem decode_arm : dec .idle 0 0 armingTable 0b11100011#8 = some (.arm 0xE3#8) := by decide
theorem decode_arm_system : dec .idle 0 0 armingTable 0b11110100#8 = some (.arm 0xF4#8) := by decide
theorem decode_cmd00 : dec .idle 0 0 [] 0b00000010#8 = some (.cmd00 0b0010#4) := by decide
theorem decode_cmd10 : dec .idle 0 0 [] 0b00011001#8 = some (.cmd10 0b1001#4) := by decide
theorem decode_cmd20 : dec .idle 0 0 [] 0b00100000#8 = some (.cmd20 0b0000#4) := by decide
theorem decode_cmd30 : dec .idle 0 0 [] 0b00110111#8 = some (.cmd30 0b0111#4) := by decide
theorem decode_cmd40 : dec .idle 0 0 [] 0b01001110#8 = some (.cmd40 0b1110#4) := by decide
theorem decode_cmd50 : dec .idle 0 0 [] 0b01010101#8 = some (.cmd50 0b0101#4) := by decide
theorem decode_cmd60 : dec .idle 0 0 [] 0b01101100#8 = some (.cmd60 0b1100#4) := by decide
theorem decode_cmd70 : dec .idle 0 0 [] 0b01110011#8 = some (.cmd70 0b0011#4) := by decide
theorem decode_cmd80 : dec .idle 0 0 [] 0b10001010#8 = some (.cmd80 0b1010#4) := by decide
theorem decode_cmd90 : dec .idle 0 0 [] 0b10010001#8 = some (.cmd90 0b0001#4) := by decide
theorem decode_cmdA0 : dec .idle 0 0 [] 0b10101000#8 = some (.cmdA0 0b1000#4) := by decide
theorem decode_cmdB0 : dec .idle 0 0 [] 0b10111111#8 = some (.cmdB0 0b1111#4) := by decide
theorem decode_cmdC0 : dec .idle 0 0 [] 0b11000110#8 = some (.cmdC0 0b0110#4) := by decide
theorem decode_cmdD0 : dec .idle 0 0 [] 0b11011101#8 = some (.cmdD0 0b1101#4) := by decide
theorem decode_cmdE0 : dec .idle 0 0 [] 0b11100100#8 = some (.cmdE0 0b0100#4) := by decide
theorem decode_sysF1 : dec .idle 0 0 [] 0b11110001#8 = some .sysF1 := by decide
theorem decode_sysF2 : dec .idle 0 0 [] 0b11110010#8 = some .sysF2 := by decide
theorem decode_sysF3 : dec .idle 0 0 [] 0b11110011#8 = some .sysF3 := by decide
theorem decode_sysF4 : dec .idle 0 0 [] 0b11110100#8 = some .sysF4 := by decide
theorem decode_sysF5 : dec .idle 0 0 [] 0b11110101#8 = some .sysF5 := by decide
theorem decode_sysF6 : dec .idle 0 0 [] 0b11110110#8 = some .sysF6 := by decide
theorem decode_sysF7 : dec .idle 0 0 [] 0b11110111#8 = some .sysF7 := by decide
theorem decode_sysF8 : dec .idle 0 0 [] 0b11111000#8 = some .sysF8 := by decide
theorem decode_sysF9 : dec .idle 0 0 [] 0b11111001#8 = some .sysF9 := by decide
theorem decode_sysFA : dec .idle 0 0 [] 0b11111010#8 = some .sysFA := by decide
theorem decode_sysFB : dec .idle 0 0 [] 0b11111011#8 = some .sysFB := by decide
theorem decode_sysFC : dec .idle 0 0 [] 0b11111100#8 = some .sysFC := by decide
theorem decode_sysFD : dec .idle 0 0 [] 0b11111101#8 = some .sysFD := by decide
theorem decode_sysFE : dec .idle 0 0 [] 0b11111110#8 = some .sysFE := by decide

/-- Decode a request in the context after reset. -/
def decReq (r : Request) : Option Instr := (decode DecodeCtx.afterReset r).toOption

theorem decode_reset : decReq (.op .reset) = some .reset := by decide
theorem decode_attach : decReq (.op (.attach .sysex ⟨7⟩)) = some (.attach .sysex ⟨7⟩) := by decide
theorem decode_detach : decReq (.op (.detach .systemReset)) = some (.detach .systemReset) := by decide
theorem decode_sendSysex : decReq (.op (.sendSysex 0x7F#8 [1#16])) = some (.sendSysex 0x7F#8 [1#16]) := by decide
theorem decode_sendSysexBad : decReq (.op (.sendSysex 0x80#8 [1#16])) = some (.sendSysexBad 0x80#8 [1#16]) := by decide
theorem decode_onSystemReset : decReq (.onSystemReset ⟨1⟩) = some (.onSystemReset ⟨1⟩) := by decide
theorem decode_onSysex : decReq (.onSysex ⟨2⟩) = some (.onSysex ⟨2⟩) := by decide
theorem decode_classify : decReq (.classify 0x12#8) = some (.classify 0x12#8) := by decide
theorem decode_isData : decReq (.isData 0x80#8) = some (.isData 0x80#8) := by decide
theorem decode_enc7 : decReq (.enc7 200#16) = some (.enc7 200#16) := by decide
theorem decode_dec7 : decReq (.dec7 72#7 1#7) = some (.dec7 72#7 1#7) := by decide
theorem decode_decodePayload : decReq (.decodePayload [0x48#8, 1#8]) = some (.decodePayload [0x48#8, 1#8]) := by decide
theorem decode_doReset : decReq .doReset = some .doReset := by decide
theorem decode_noRow : dec .awaitMB 0 0 [] 0x48#8 = none := by decide
theorem table_is_sorted : (wireTable.map TableRow.priority).Pairwise (· ≤ ·) := by decide
theorem table_has_39_rows : wireTable.length = 39 := by decide

/-! ### One step each, on the vectors of 95_test_vectors.md -/

/-- The next state of an outcome, if it has one. -/
def nextOf : Result → Option State
  | .next s => some s
  | _ => none

/-- The refusal of an outcome, if it is one. -/
def refusalOf : Result → Option Refusal
  | .refused r => some r
  | _ => none

/-- An open frame with `n` stored bytes `1, 2, ..., n`, both slots occupied. -/
def frame (n : Nat) : State :=
  { State.reset with
    mode := .inSysex, count := n, buf := (List.range n).map fun i => (i, BitVec.ofNat 8 (i + 1))
    slotReset := some ⟨1⟩, slotSysex := some ⟨2⟩ }

/-- A multi-byte wait armed by `b` with `r` bytes to come, under the table of section 2.6. -/
def waiting (b : Byte) (r : Nat) : State :=
  { State.constructed armingTable with mode := .awaitMB, remaining := r, armed := b, slotReset := some ⟨1⟩ }

/-- The state after the step that performs one request. -/
def after (s : State) (r : Request) : Option State := nextOf (step (s.asked [r]))

/-- The state after the step that receives one byte. -/
def rx (s : State) (b : Byte) : Option State := after s (.op (.rx b))

/-- Section 2.4, last row but one of the full buffer: no `Overflow`. -/
theorem test_sxReset_full : (rx (frame 32) 0xFF#8).map (·.out) = some [.resetCallback ⟨1⟩] := by decide
theorem test_sxReset_clears :
    (rx (frame 2) 0xFF#8).map (fun t => (t.mode, t.count, t.buf)) = some (.idle, 0, []) := by decide
/-- Section 2.4: the longest frame. -/
theorem test_sxEnd_full : (rx (frame 32) 0xF7#8).map (·.out) =
    some [.sysexCallback ⟨2⟩ 1#8 31 ((List.range 31).map fun i => BitVec.ofNat 8 (i + 2))] := by decide
theorem test_sxEnd_keeps_count :
    (rx (frame 3) 0xF7#8).map (fun t => (t.mode, t.count, t.cell 2)) = some (.idle, 3, 3#8) := by decide
theorem test_sxEndEmpty : (rx (frame 0) 0xF7#8).map (fun t => (t.mode, t.out)) = some (.idle, [.emptyFrame]) := by
  decide
/-- Section 2.4: the last cell, and `0xF0` as payload. -/
theorem test_sxData_last :
    (rx (frame 31) 0xF0#8).map (fun t => (t.mode, t.count, t.cell 31)) = some (.inSysex, 32, 0xF0#8) := by decide
theorem test_sxData_zero : (rx (frame 1) 0x00#8).map (fun t => (t.count, t.buf)) = some (2, [(0, 1#8)]) := by decide
theorem test_sxDataOvf :
    (rx (frame 32) 0xF0#8).map (fun t => (t.mode, t.out)) = some (.idle, [.overflow, .resetCallback ⟨1⟩]) := by decide
theorem test_mbData :
    (rx (waiting 0xE3#8 2) 0x48#8).map (fun t => (t.remaining, t.buf, t.armed)) = some (1, [(1, 0x48#8)], 0xE3#8) := by
  decide
theorem test_mbData_top : (rx (waiting 0xC1#8 32) 0x01#8).map (·.buf) = some [(31, 1#8)] := by decide
theorem test_mbDataLast :
    (rx { waiting 0xE3#8 1 with buf := [(1, 0x48#8)] } 0x01#8).map (fun t => (t.mode, t.armed, t.out)) =
      some (.idle, 0x00#8, [.multiByteComplete 0xE3#8 [0x01#8, 0x48#8]]) := by decide
theorem test_startSysex_keeps_buf :
    (rx { frame 3 with mode := .idle } 0xF0#8).map (fun t => (t.mode, t.count, t.cell 1)) =
      some (.inSysex, 0, 2#8) := by decide
theorem test_startSysex_abandons_wait :
    (rx (waiting 0xE3#8 1) 0xF0#8).map (fun t => (t.mode, t.remaining, t.armed, t.out)) =
      some (.inSysex, 0, 0x00#8, []) := by decide
theorem test_systemReset_when_reset :
    (rx { State.reset with slotReset := some ⟨5⟩ } 0xFF#8).map (·.out) = some [.resetCallback ⟨5⟩] := by decide
theorem test_arm :
    (rx (State.constructed armingTable) 0xE3#8).map (fun t => (t.mode, t.remaining, t.armed)) =
      some (.awaitMB, 2, 0xE3#8) := by decide
theorem test_arm_replaces_wait :
    (rx (waiting 0xE3#8 1) 0x95#8).map (fun t => (t.remaining, t.armed)) = some (1, 0x95#8) := by decide
/-- Section 2.5: ignored bytes leave the reset state as it is. -/
theorem test_ignored_bytes : ∀ b ∈ [0x00#8, 0x48#8, 0x80#8, 0xEF#8, 0xF1#8, 0xF7#8, 0xFE#8],
    rx State.reset b = some State.reset := by decide
theorem test_ignored_in_wait : rx (waiting 0xE3#8 1) 0xF9#8 = some (waiting 0xE3#8 1) := by decide
theorem test_reset : (after (frame 2) (.op .reset)).map (fun t => (t.mode, t.buf, t.out)) =
    some (.idle, [], [.resetCallback ⟨1⟩]) := by decide
theorem test_attach_replaces : (after (frame 2) (.op (.attach .sysex ⟨9⟩))).map (fun t => (t.slotReset, t.slotSysex)) =
    some (some ⟨1⟩, some ⟨9⟩) := by decide
theorem test_detach : (after (frame 2) (.op (.detach .systemReset))).map (fun t => (t.slotReset, t.slotSysex)) =
    some (none, some ⟨2⟩) := by decide
/-- Section 2.3: a truncated value. -/
theorem test_sendSysex : (after (frame 2) (.op (.sendSysex 0x71#8 [1000#16, 65535#16, 256#16]))).map (·.tx) =
    some [0xF0#8, 0x71#8, 0x68#8, 0x07#8, 0x7F#8, 0x7F#8, 0x00#8, 0x02#8, 0xF7#8] := by decide
theorem test_sendSysexBad : (after (frame 2) (.op (.sendSysex 0x80#8 [1#16]))).map (·.out) =
    some [.txBadCommand 0x80#8] := by decide
theorem test_onSystemReset : (after State.reset (.onSystemReset ⟨4⟩)).map (·.slotReset) = some (some ⟨4⟩) := by decide
theorem test_onSysex : (after State.reset (.onSysex ⟨4⟩)).map (·.slotSysex) = some (some ⟨4⟩) := by decide
theorem test_classify_last_channel :
    (after State.reset (.classify 0xEF#8)).map (·.result) = some (some (.classified 0xE0#8 (some 15#4))) := by decide
theorem test_classify_first_system :
    (after State.reset (.classify 0xF0#8)).map (·.result) = some (some (.classified 0xF0#8 none)) := by decide
theorem test_isData_last : (after State.reset (.isData 0x7F#8)).map (·.result) = some (some (.dataTest true)) := by decide
theorem test_isData_first_not :
    (after State.reset (.isData 0x80#8)).map (·.result) = some (some (.dataTest false)) := by decide
theorem test_enc7_200 : (after State.reset (.enc7 200#16)).map (·.result) = some (some (.pair 72#8 1#8)) := by decide
theorem test_enc7_truncates : (after State.reset (.enc7 16584#16)).map (·.result) = some (some (.pair 72#8 1#8)) := by
  decide
theorem test_dec7_order : (after State.reset (.dec7 1#7 72#7)).map (·.result) = some (some (.value 9217#14)) := by decide
theorem test_decodePayload :
    (after State.reset (.decodePayload [0x48#8, 0x01#8, 0x7F#8, 0x7F#8, 0x00#8, 0x00#8])).map (·.result) =
      some (some (.values [200#14, 16383#14, 0#14])) := by decide
theorem test_decodePayload_odd :
    refusalOf (step (State.reset.asked [.decodePayload [0x10#8]])) = some .payloadNotPairs := by decide
theorem test_doReset : (after (frame 2) .doReset).map (fun t => (t.mode, t.count, t.out)) =
    some (.idle, 0, [.resetCallback ⟨1⟩]) := by decide
theorem test_idle_holds : nextOf (step (frame 2)) = some (frame 2) := by decide
theorem test_fetch_word : (nextOf (step (State.reset.withFetchWord 8 0xF0))).map (·.mode) = some .inSysex := by decide
theorem test_table_word : decodeTableWord 8 0xC5 = some (.cmdC0 5#4) := by decide

/-! ### Witnesses: a state and operands that meet the hypotheses of each statement, clause by clause -/

theorem witness_EveryStepKeepsInv_exec : ∃ i s t, State.Inv s ∧ exec i s = .next t :=
  ⟨.sxData 5#8, frame 31, _, by decide, rfl⟩
theorem witness_EveryStepKeepsInv_step : ∃ s t, State.Inv s ∧ step s = .next t ∧ s ≠ t :=
  ⟨(frame 32).asked [.op (.rx 0x21#8)], _, by decide, rfl, by decide⟩
theorem witness_EveryStepKeepsInv_run : ∃ cfg rs n t, run n ((State.constructed cfg).asked rs) = .next t ∧ t.mode = .awaitMB :=
  ⟨armingTable, driverLoop [0xE3#8], 1, _, rfl, by decide⟩

theorem witness_StepPerformsDecodedRequest_idle : ∃ s : State, s.Inv ∧ s.requests = [] := ⟨frame 32, by decide, by decide⟩
theorem witness_StepPerformsDecodedRequest_decoded :
    ∃ s r rest i, State.Inv s ∧ s.requests = r :: rest ∧ decode s.ctx r = .ok i :=
  ⟨(frame 32).asked [.op (.rx 0x21#8)], _, _, _, by decide, rfl, rfl⟩
theorem witness_StepPerformsDecodedRequest_illFormed : ∃ s : State, ¬ s.Inv := ⟨frame 33, by decide⟩

theorem witness_ExactlyOneRowTakesEveryByte_row :
    ∃ s b rest, State.Inv s ∧ s.requests = .op (.rx b) :: rest ∧ s.mode = .awaitMB :=
  ⟨(waiting 0xE3#8 1).asked [.op (.rx 0x7F#8)], _, _, by decide, rfl, by decide⟩
theorem witness_ExactlyOneRowTakesEveryByte_core :
    ∃ s t, IsCore s ∧ s.mode ≠ .awaitMB ∧ step s = .next t ∧ s ≠ t :=
  ⟨(frame 32).asked [.op (.rx 0xF7#8)], _, fun _ => rfl, by decide, rfl, by decide⟩
theorem witness_ExactlyOneRowTakesEveryByte_coreRow :
    ∃ (s : State) (b : Byte) (i : Instr), IsCore s ∧ s.mode ≠ .awaitMB ∧ decode s.ctx (.op (.rx b)) = .ok i :=
  ⟨State.reset, 0xE3#8, _, fun _ => rfl, by decide, rfl⟩

theorem witness_ReceivedByteRunsProcessByte : ∃ s b rest, State.Inv s ∧ s.requests = .op (.rx b) :: rest :=
  ⟨(waiting 0xC1#8 32).asked [.op (.rx 0x00#8)], _, _, by decide, rfl⟩

theorem witness_DecodeInvertsEncode : ∃ c i, Instr.WellFormed i = true ∧ rowContext c i = true :=
  ⟨(frame 32).ctx, .sxDataOvf 0xF0#8, by decide, by decide⟩
theorem witness_TableDecoderAgrees_wait : ∃ c : DecodeCtx, c.mode = .awaitMB ∧ c.remaining = 1 :=
  ⟨(waiting 0xE3#8 1).ctx, by decide, by decide⟩
theorem witness_TableDecoderAgrees_frame : ∃ c : DecodeCtx, c.mode = .inSysex ∧ c.count = 32 :=
  ⟨(frame 32).ctx, by decide, by decide⟩

theorem witness_ResetByteInFrameResets : ∃ s : State, s.mode = .inSysex := ⟨frame 32, rfl⟩
theorem witness_EndOfFrameDeliversFrame_empty : ∃ s : State, s.mode = .inSysex ∧ 1 ≤ s.count ∧ s.slotSysex = none :=
  ⟨{ frame 1 with slotSysex := none }, by decide⟩
theorem witness_EndOfFrameDeliversFrame_one :
    ∃ s : State, s.mode = .inSysex ∧ 1 ≤ s.count ∧ s.count = 1 ∧ s.slotSysex = some ⟨2⟩ := ⟨frame 1, by decide⟩
theorem witness_EndOfFrameDeliversFrame_full :
    ∃ s : State, s.mode = .inSysex ∧ 1 ≤ s.count ∧ s.count = 32 ∧ s.slotSysex = some ⟨2⟩ := ⟨frame 32, by decide⟩
theorem witness_EmptyFrameIsReported : ∃ s : State, s.mode = .inSysex ∧ s.count = 0 := ⟨frame 0, by decide⟩
theorem witness_FrameByteIsStoredAtCount_last :
    ∃ (s : State) (b : Byte), s.buf.wf = true ∧ s.mode = .inSysex ∧ s.count = 31 ∧ b ≠ 0xF7#8 ∧ b ≠ 0xFF#8 :=
  ⟨frame 31, 0xFE#8, by decide⟩
theorem witness_FrameByteIsStoredAtCount_first :
    ∃ (s : State) (b : Byte), s.buf.wf = true ∧ s.mode = .inSysex ∧ s.count = 0 ∧ b ≠ 0xF7#8 ∧ b ≠ 0xFF#8 :=
  ⟨frame 0, 0x00#8, by decide⟩
theorem witness_FullFrameOverflowsThenResets :
    ∃ (s : State) (b : Byte), s.mode = .inSysex ∧ s.count = 32 ∧ b ≠ 0xF7#8 ∧ b ≠ 0xFF#8 :=
  ⟨frame 32, 0xF0#8, by decide⟩
theorem witness_UnterminatedFrameOverflowsOnce :
    ∃ (s : State) (ds : List Septet) (rest : List Request), s.Inv ∧ s.mode = .idle ∧ IsCore s ∧ 33 ≤ ds.length ∧
      s.requests = driverLoop (0xF0#8 :: ds.map dataByte) ++ rest :=
  ⟨State.reset.asked (driverLoop (0xF0#8 :: (List.replicate 33 5#7).map dataByte) ++ []), List.replicate 33 5#7, [],
    by decide, by decide, fun _ => rfl, by decide, rfl⟩

theorem witness_WaitByteIsStoredDownward_low :
    ∃ s : State, s.buf.wf = true ∧ s.mode = .awaitMB ∧ s.remaining = 2 := ⟨waiting 0xE3#8 2, by decide⟩
theorem witness_WaitByteIsStoredDownward_top :
    ∃ s : State, s.buf.wf = true ∧ s.mode = .awaitMB ∧ s.remaining = 32 := ⟨waiting 0xC1#8 32, by decide⟩
theorem witness_LastWaitByteCompletes :
    ∃ s : State, s.buf.wf = true ∧ s.mode = .awaitMB ∧ s.remaining = 1 := ⟨waiting 0xC1#8 1, by decide⟩
theorem witness_MultiByteDataArrivesReversed :
    ∃ (s : State) (b : Byte) (ds : List Septet) (rest : List Request), s.Inv ∧ s.mode = .idle ∧ b ≠ 0xF0#8 ∧ b ≠ 0xFF#8 ∧
      0 < ds.length ∧ mbLenOf s.mbLen (classify b).command = ds.length ∧
      s.requests = driverLoop (b :: ds.map dataByte) ++ rest :=
  ⟨(State.constructed armingTable).asked (driverLoop (0xC1#8 :: (List.replicate 32 5#7).map dataByte) ++ []), 0xC1#8,
    List.replicate 32 5#7, [], by decide, by decide, by decide, by decide, by decide, by decide, rfl⟩

theorem witness_StartSysexOpensFrame : ∃ s : State, s.mode = .awaitMB := ⟨waiting 0xE3#8 1, rfl⟩
theorem witness_SystemResetByteResets : ∃ s : State, s.mode = .idle := ⟨State.reset, rfl⟩
theorem witness_ArmingByteStartsWait_idle :
    ∃ s b, InCommandPosition s b ∧ b ≠ 0xF0#8 ∧ b ≠ 0xFF#8 ∧ 0 < mbLenOf s.mbLen (classify b).command :=
  ⟨State.constructed armingTable, 0xC1#8, .inl rfl, by decide⟩
theorem witness_ArmingByteStartsWait_wait :
    ∃ s b, s.mode = .awaitMB ∧ InCommandPosition s b ∧ b ≠ 0xF0#8 ∧ b ≠ 0xFF#8 ∧
      0 < mbLenOf s.mbLen (classify b).command :=
  ⟨waiting 0xE3#8 1, 0x95#8, rfl, .inr ⟨rfl, by decide⟩, by decide⟩
theorem witness_ChannelCommandsAreIgnored_idle :
    ∃ (s : State) (ch : Nibble), InCommandPosition s (0x00#8 ||| ch.setWidth 8) ∧ mbLenOf s.mbLen 0x00#8 = 0 :=
  ⟨State.reset, 15#4, .inl rfl, by decide⟩
theorem witness_ChannelCommandsAreIgnored_wait :
    ∃ (s : State) (ch : Nibble), s.mode = .awaitMB ∧ InCommandPosition s (0x80#8 ||| ch.setWidth 8) ∧
      mbLenOf s.mbLen 0x80#8 = 0 :=
  ⟨waiting 0xE3#8 1, 0#4, rfl, .inr ⟨rfl, by decide⟩, by decide⟩
theorem witness_SystemBytesAreIgnored :
    ∃ s : State, (s.mode = .idle ∨ s.mode = .awaitMB) ∧ mbLenOf s.mbLen 0xF1#8 = 0 :=
  ⟨waiting 0xE3#8 1, .inr rfl, by decide⟩

theorem witness_OneCallbackPerResetEvent_row :
    ∃ i s t, RunsReset i ∧ State.slotReset s = some ⟨1⟩ ∧ exec i s = .next t :=
  ⟨.sxDataOvf 0#8, frame 32, _, .inr (.inr (.inr (.inr ⟨_, rfl⟩))), rfl, rfl⟩
theorem witness_OneCallbackPerResetEvent_twice : ∃ s t, State.slotReset s = some ⟨1⟩ ∧ exec .reset s = .next t :=
  ⟨frame 2, _, rfl, rfl⟩
theorem witness_OnlyRegistryWritesSlots :
    ∃ i s t, exec i s = .next t ∧ writesSlot i ≠ some .systemReset ∧ t.slotSysex ≠ s.slotSysex :=
  ⟨.detach .sysex, frame 2, _, rfl, by decide, by decide⟩

theorem witness_SendSysexWritesFrame : ∃ cmd : Byte, cmd.toNat < 128 := ⟨0x7F#8, by decide⟩
theorem witness_BadCommandSendsNothing : ∃ cmd : Byte, 128 ≤ cmd.toNat := ⟨0x80#8, by decide⟩
theorem witness_ClassifySplitsByte_channel : ∃ b : Byte, b.toNat < 0xF0 := ⟨0xEF#8, by decide⟩
theorem witness_ClassifySplitsByte_system : ∃ b : Byte, 0xF0 ≤ b.toNat := ⟨0xF0#8, by decide⟩
theorem witness_PairCodecRoundTrips : ∃ v : Word16, v.toNat ≤ 16383 ∧ v.toNat = 16383 := ⟨16383#16, by decide⟩
theorem witness_DecodePayloadReadsPairs : ∃ (ps : List (Septet × Septet)) (i : Nat), ps[i]? = some (127#7, 127#7) :=
  ⟨[(127#7, 127#7)], 0, rfl⟩
theorem witness_MalformedPayloadIsRefused_odd : ∃ data : List Byte, data.length % 2 = 1 := ⟨[0x10#8], by decide⟩
theorem witness_MalformedPayloadIsRefused_high : ∃ data : List Byte, ∃ b ∈ data, 128 ≤ b.toNat :=
  ⟨[0x7F#8, 0x80#8], 0x80#8, by decide, by decide⟩
/-- The sender of the loopback witness, which has already written a byte. -/
def sender : State := State.reset.transmit [0x01#8]

/-- The sender after sending the values 200 and 16383. -/
def sent : State := sender.transmit (frameBytes 0x7F#8 [200#16, 16383#16])

/-- The receiver of the loopback witness, with the sender's new bytes to receive. -/
def receiver : State :=
  State.asked { State.reset with slotSysex := some ⟨3⟩ } (driverLoop (writtenSince sender sent) ++ [])

theorem test_sender : exec (.sendSysex 0x7F#8 [200#16, 16383#16]) sender = .next sent := by
  simp only [exec, execSendSysex, select, show isData 0x7F#8 = true by decide, if_true]
  rfl
theorem test_receiver : receiver.requests = driverLoop (writtenSince sender sent) ++ [] := by
  simp only [receiver, State.asked]
theorem test_writtenSince :
    writtenSince sender sent = [0xF0#8, 0x7F#8, 0x48#8, 0x01#8, 0x7F#8, 0x7F#8, 0xF7#8] := by decide

theorem witness_LoopbackDeliversSentValues :
    ((0x7F#8 : Byte).toNat < 128 ∧ ([200#16, 16383#16] : List Word16).length ≤ 15 ∧
      (∀ v ∈ ([200#16, 16383#16] : List Word16), v.toNat ≤ 16383)) ∧
    exec (.sendSysex 0x7F#8 [200#16, 16383#16]) sender = .next sent ∧
    (receiver.Inv ∧ receiver.mode = .idle ∧ receiver.slotSysex = some ⟨3⟩) ∧
    receiver.requests = driverLoop (writtenSince sender sent) ++ [] :=
  ⟨by simp, test_sender, by decide, test_receiver⟩

theorem witness_ReceivingNeverTransmits_frame :
    ∃ s b rest, State.Inv s ∧ s.requests = .op (.rx b) :: rest ∧ StoresInFrame s b :=
  ⟨(frame 31).asked [.op (.rx 0xF0#8)], _, _, by decide, rfl, by unfold StoresInFrame; decide⟩
theorem witness_ReceivingNeverTransmits_wait :
    ∃ s b rest, State.Inv s ∧ s.requests = .op (.rx b) :: rest ∧ StoresInWait s b :=
  ⟨(waiting 0xC1#8 32).asked [.op (.rx 0x7F#8)], _, _, by decide, rfl, by unfold StoresInWait; decide⟩
theorem witness_ReceivingNeverTransmits_resetByte :
    ∃ s b rest, State.Inv s ∧ s.requests = .op (.rx b) :: rest ∧ ResetsOn s b :=
  ⟨(waiting 0xE3#8 1).asked [.op (.rx 0xFF#8)], _, _, by decide, rfl, by unfold ResetsOn; decide⟩
theorem witness_ReceivingNeverTransmits_overflow :
    ∃ s b rest, State.Inv s ∧ s.requests = .op (.rx b) :: rest ∧ b ≠ 0xFF#8 ∧ ResetsOn s b :=
  ⟨(frame 32).asked [.op (.rx 0xF0#8)], _, _, by decide, rfl, by decide, by unfold ResetsOn; decide⟩
theorem witness_ReceivingNeverTransmits_nothing :
    ∃ s b rest, State.Inv s ∧ s.requests = .op (.rx b) :: rest ∧
      ¬ StoresInFrame s b ∧ ¬ StoresInWait s b ∧ ¬ ResetsOn s b :=
  ⟨(frame 32).asked [.op (.rx 0xF7#8)], _, _, by decide, rfl, by unfold StoresInFrame; decide,
    by unfold StoresInWait; decide, by unfold ResetsOn; decide⟩
theorem witness_OverflowComesBeforeResetCallback :
    ∃ s t b rest e1 e2 es, State.requests s = .op (.rx b) :: rest ∧ step s = .next t ∧ t.out = s.out ++ e1 :: e2 :: es :=
  ⟨(frame 32).asked [.op (.rx 0x21#8)], _, _, _, .overflow, .resetCallback ⟨1⟩, [], rfl, rfl, by decide⟩
theorem witness_OnlyThreeThingsCloseFrame_closed :
    ∃ s t r rest, State.mode s = .inSysex ∧ s.requests = r :: rest ∧ step s = .next t ∧ t.mode ≠ .inSysex :=
  ⟨(frame 32).asked [.op (.rx 0x21#8)], _, _, _, rfl, rfl, rfl, by decide⟩
theorem witness_OnlyThreeThingsCloseFrame_open :
    ∃ s t r rest, State.mode s = .inSysex ∧ s.requests = r :: rest ∧ step s = .next t ∧ t.mode = .inSysex :=
  ⟨(frame 31).asked [.op (.rx 0x21#8)], _, _, _, rfl, rfl, rfl, by decide⟩
theorem witness_RegistersHaveTheirListedWriters :
    ∃ i s t, exec i s = .next t ∧ State.mode t ≠ State.mode s ∧ t.remaining ≠ s.remaining ∧ t.count ≠ s.count ∧
      t.armed ≠ s.armed ∧ t.buf ≠ s.buf :=
  ⟨.doReset, { waiting 0xE3#8 1 with count := 3, buf := [(1, 0x48#8)] }, _, rfl, by decide⟩
theorem witness_ExecKeepsConfigurationAndRequests : ∃ i s t, exec i s = .next t ∧ State.mbLen s ≠ [] ∧ s.requests ≠ [] :=
  ⟨.doReset, (waiting 0xE3#8 1).asked [.doReset], _, rfl, by decide⟩
theorem witness_EventsAreAppendedAndNeverRead : ∃ s t, step s = .next t ∧ t.out ≠ s.out :=
  ⟨(frame 1).asked [.op (.rx 0xF7#8)], _, rfl, by decide⟩
theorem witness_EventsKeepTheirShape :
    ∃ s t, State.Inv s ∧ (∀ e ∈ s.out, e.wf = true) ∧ step s = .next t ∧ t.out ≠ s.out :=
  ⟨(frame 32).asked [.op (.rx 0xF7#8)], _, by decide, by decide, rfl, by decide⟩
/-- Two frames that differ in a stale cell only. -/
theorem witness_HiddenStateIsNeverObserved :
    ∃ s s' t, State.Inv s ∧ State.Inv s' ∧ SameVisible s s' ∧ s ≠ s' ∧ step s = .next t :=
  ⟨(frame 1).asked [.op (.rx 0xF7#8)],
    State.asked { frame 1 with buf := [(0, 1#8), (5, 9#8)] } [.op (.rx 0xF7#8)], _, by decide, by decide,
    ⟨rfl, rfl, rfl, rfl, rfl, rfl, rfl, rfl, rfl, fun _ => rfl, fun i hi => by
      rcases hi with ⟨_, hi⟩ | ⟨hm, _⟩
      · obtain rfl : i = 0 := Nat.lt_one_iff.1 hi
        decide
      · cases hm⟩, by decide, rfl⟩
theorem witness_InvStatesNeverFault : ∃ s : State, s.Inv ∧ s.requests ≠ [] :=
  ⟨(frame 32).asked [.op (.rx 0xF7#8)], by decide, by decide⟩
theorem witness_MissingCellFaults_store : ∃ s : State, s.mode = .awaitMB ∧ s.remaining = 33 := ⟨waiting 0xE3#8 33, by decide⟩
theorem witness_MissingCellFaults_load :
    ∃ s : State, s.mode = .inSysex ∧ s.count = 33 ∧ s.slotSysex = some ⟨2⟩ := ⟨frame 33, by decide⟩
theorem witness_InstructionCompletesExactlyWhenSelected_selected :
    ∃ i s, State.Inv s ∧ Instr.WellFormed i = true ∧ rowContext s.ctx i = true :=
  ⟨.mbDataLast 0#7, waiting 0xE3#8 1, by decide⟩
theorem witness_InstructionCompletesExactlyWhenSelected_not :
    ∃ i s, State.Inv s ∧ ¬ (Instr.WellFormed i = true ∧ rowContext s.ctx i = true) :=
  ⟨.sxData 0#8, State.reset, by decide⟩
theorem witness_StepStopsOnlyOnMalformedPayload :
    ∃ s : State, s.Inv ∧ s.requests = [.decodePayload [0x10#8]] ∧ decodePayload [0x10#8] = none :=
  ⟨State.reset.asked [.decodePayload [0x10#8]], by decide, by decide, by decide⟩

end Sys2Proof.Tests
end

section
/-! SUPPORT. The step function by its cases: an idle step, a step that performs the decoded request, the two
refusals. Then the statements on scope that follow from the definitions alone (O2, O5). -/

namespace Sys2Proof.Machine

section
variable {s : State}

theorem step_of_no_request (hs : s.Inv) (hq : s.requests = []) : step s = .next s := by
  simp only [step, if_pos hs, fetch_none.2 hq, State.idleStep]

theorem step_of_decode_ok {r : Request} {rest : List Request} {i : Instr} (hs : s.Inv)
    (hq : s.requests = r :: rest) (hd : decode s.ctx r = .ok i) :
    step s = exec i { s with requests := rest } := by
  have hn : State.decodeNext { s with requests := rest } r = .ok i := decodeNext_ok.2 hd
  simp only [step, if_pos hs, fetch_some.2 ⟨rest, hq, rfl⟩, hn]

theorem step_of_decode_error {r : Request} {rest : List Request} {e : DecodeError} (hs : s.Inv)
    (hq : s.requests = r :: rest) (hd : decode s.ctx r = .error e) : step s = .refused .undecodable := by
  cases e
  have hn : State.decodeNext { s with requests := rest } r = .error .undecodable := by
    simp only [State.decodeNext, show State.ctx { s with requests := rest } = s.ctx from rfl, hd]
  simp only [step, if_pos hs, fetch_some.2 ⟨rest, hq, rfl⟩, hn]

theorem step_of_not_inv (hs : ¬ s.Inv) : step s = .refused .illFormedState := if_neg hs

end

/-- Settles O2: both parts hold by the definition of the reset state. -/
theorem resetHasCoreConfiguration : Obligations.ResetHasCoreConfiguration :=
  ⟨State.reset_eq, fun _ => rfl⟩

/-- Settles O5: the idle, the decoded and the ill-formed case of the step function. -/
theorem stepPerformsDecodedRequest : Obligations.StepPerformsDecodedRequest :=
  ⟨fun _ => step_of_no_request, fun _ _ _ _ => step_of_decode_ok, fun _ => step_of_not_inv⟩

end Sys2Proof.Machine
end

section
/-! SUPPORT. Relabelling: the handlers of a state are renamed and earlier events are put in front of its stream.
Every shared operation commutes with it, so every instruction and every step does. With no earlier events it is the
renaming of R9 (O49); with the identity on handlers it says that no rule reads the event stream (O47). -/

namespace Sys2Proof.Machine

/-- The state with its handlers renamed by `f` and the events `p` before its own. -/
def State.relabel (f : HandlerId → HandlerId) (p : List Event) (s : State) : State :=
  { s.rename f with out := p ++ (s.rename f).out }

/-- An instruction with its handlers renamed; `attach`, `onSystemReset` and `onSysex` are the rows that name one. -/
def Instr.rename (f : HandlerId → HandlerId) : Instr → Instr
  | .attach cat h => .attach cat (f h)
  | .onSystemReset h => .onSystemReset (f h)
  | .onSysex h => .onSysex (f h)
  | i => i

@[simp] theorem Request.rename_id (r : Request) : Request.rename id r = r := by
  cases r with
  | op o => cases o <;> rfl
  | _ => rfl

@[simp] theorem Event.rename_id (e : Event) : Event.rename id e = e := by cases e <;> rfl

section
variable (f : HandlerId → HandlerId) (p : List Event) (s : State)

theorem State.relabel_nil : State.relabel f [] = State.rename f := rfl

theorem State.relabel_id : s.relabel id p = { s with out := p ++ s.out } := by
  have hr : Request.rename id = id := funext Request.rename_id
  have he : Event.rename id = id := funext Event.rename_id
  simp [State.relabel, State.rename, hr, he]

/-! ### A relabelled state under the shared operations -/

theorem inv_relabel : (s.relabel f p).Inv ↔ s.Inv := Iff.rfl

theorem relabel_emit (e : Event) : (s.relabel f p).emit (Event.rename f e) = (s.emit e).relabel f p := by
  simp [State.emit, State.relabel, State.rename]

theorem relabel_transmit (bs : List Byte) : (s.relabel f p).transmit bs = (s.transmit bs).relabel f p := by
  simp [State.transmit, State.relabel, State.rename, Function.comp_def, Event.rename]

theorem relabel_setSlot (cat : Category) (v : Option HandlerId) :
    (s.relabel f p).setSlot cat (v.map f) = (s.setSlot cat v).relabel f p := by
  cases cat <;> rfl

theorem resetEvents_map (slot : Option HandlerId) :
    resetEvents (slot.map f) = (resetEvents slot).map (Event.rename f) := by
  cases slot <;> rfl

theorem relabel_doReset : (s.relabel f p).doReset = s.doReset.relabel f p := by
  simp [State.doReset, State.relabel, State.rename, resetEvents_map]

end

/-! ### Outcomes: a continuation that commutes with `g` makes the operation commute with `g` -/

theorem select_mapNext {g : State → State} {c : Bool} {r r' : Result} (h : r' = mapNext g r) :
    select c r' = mapNext g (select c r) := by
  subst h
  cases c <;> rfl

theorem mapNext_next {g : State → State} {r : Result} {t : State} :
    mapNext g r = .next t ↔ ∃ u, r = .next u ∧ g u = t := by
  cases r <;> simp [mapNext]

section
variable {f : HandlerId → HandlerId} {p : List Event}

theorem store_relabel (s : State) (i : Nat) (b : Byte) {k k' : State → Result}
    (h : ∀ t, k' (t.relabel f p) = mapNext (State.relabel f p) (k t)) :
    (s.relabel f p).store i b k' = mapNext (State.relabel f p) (s.store i b k) := by
  unfold State.store
  split
  · exact h { s with buf := s.buf.write i b }
  · rfl

theorem load_relabel (s : State) (lo hi : Nat) {k k' : List Byte → Result}
    (h : ∀ data, k' data = mapNext (State.relabel f p) (k data)) :
    (s.relabel f p).load lo hi k' = mapNext (State.relabel f p) (s.load lo hi k) := by
  unfold State.load
  split
  · exact h _
  · rfl

theorem ignoreByte_relabel (s : State) (b : Byte) :
    ignoreByte (s.relabel f p) b = mapNext (State.relabel f p) (ignoreByte s b) :=
  select_mapNext rfl

/-- The dispatch hands the handler on and does not look at it (R93, R143). -/
theorem dispatchSysex_relabel (s : State) :
    (s.relabel f p).dispatchSysex = mapNext (State.relabel f p) s.dispatchSysex := by
  have hslot : (s.relabel f p).slotSysex = s.slotSysex.map f := rfl
  unfold State.dispatchSysex
  rw [hslot]
  cases s.slotSysex with
  | none => rfl
  | some h =>
    exact load_relabel s 1 s.count fun data =>
      congrArg Host.Outcome.next (relabel_emit f p s (.sysexCallback h (s.cell 0) (s.count - 1) data))

/-! ### Instructions -/

/-- Every instruction commutes with a relabelling. -/
theorem exec_relabel (i : Instr) (s : State) :
    exec (Instr.rename f i) (s.relabel f p) = mapNext (State.relabel f p) (exec i s) := by
  have hreset : Host.Outcome.next (s.relabel f p).doReset =
      mapNext (State.relabel f p) (.next s.doReset) := congrArg _ (relabel_doReset f p s)
  cases i with
  | sxReset => exact select_mapNext hreset
  | sxEnd => exact select_mapNext (dispatchSysex_relabel { s with mode := .idle })
  | sxEndEmpty => exact select_mapNext (congrArg _ (relabel_emit f p { s with mode := .idle } .emptyFrame))
  | sxData b => exact select_mapNext (store_relabel s s.count b fun _ => rfl)
  | sxDataOvf b =>
    have hemit : (s.relabel f p).emit .overflow = (s.emit .overflow).relabel f p := relabel_emit f p s .overflow
    refine select_mapNext (congrArg Host.Outcome.next ?_)
    rw [hemit, relabel_doReset]
  | mbData d => exact select_mapNext (store_relabel s (s.remaining - 1) (dataByte d) fun _ => rfl)
  | mbDataLast d =>
    exact select_mapNext (store_relabel s 0 (dataByte d) fun t => load_relabel t 0 _ fun data =>
      congrArg Host.Outcome.next
        (relabel_emit f p { t with remaining := 0, mode := .idle, armed := 0x00#8 }
          (.multiByteComplete s.armed data)))
  | startSysex => exact select_mapNext rfl
  | systemReset => exact select_mapNext hreset
  | arm b => exact select_mapNext rfl
  | reset => exact hreset
  | doReset => exact hreset
  | attach cat h => exact congrArg _ (relabel_setSlot f p s cat (some h))
  | detach cat => exact congrArg _ (relabel_setSlot f p s cat none)
  | onSystemReset h => exact congrArg _ (relabel_setSlot f p s .systemReset (some h))
  | onSysex h => exact congrArg _ (relabel_setSlot f p s .sysex (some h))
  | sendSysex cmd vals => exact select_mapNext (congrArg _ (relabel_transmit f p s _))
  | sendSysexBad cmd vals => exact select_mapNext (congrArg _ (relabel_emit f p s (.txBadCommand cmd)))
  | classify b => rfl
  | isData b => rfl
  | enc7 v => rfl
  | dec7 lsb msb => rfl
  | decodePayload data =>
    simp only [Instr.rename, exec, execDecodePayload]
    cases decodePayload data <;> rfl
  | _ => exact ignoreByte_relabel s _

end

/-! ### Decoding: a byte's row names no handler, a request's row names the request's -/

section
variable (f : HandlerId → HandlerId) {c : DecodeCtx} {b : Byte} {i : Instr}

theorem channelCommand_rename {hi channel : Nibble} (h : channelCommand hi channel = some i) :
    Instr.rename f i = i := by
  unfold channelCommand at h
  split at h <;> cases h <;> rfl

theorem ignoredSystemByte_rename {sel : Nibble} (h : ignoredSystemByte sel = some i) :
    Instr.rename f i = i := by
  unfold ignoredSystemByte at h
  split at h <;> cases h <;> rfl

theorem ignoredByte_rename (h : ignoredByte b = some i) : Instr.rename f i = i := by
  unfold ignoredByte at h
  split at h
  · exact channelCommand_rename f h
  · exact ignoredSystemByte_rename f h

theorem decodeCommandPosition_rename (h : decodeCommandPosition c b = .ok i) : Instr.rename f i = i := by
  unfold decodeCommandPosition at h
  split_ifs at h
  · cases h; rfl
  · cases h; rfl
  · cases h; rfl
  · split at h
    · rename_i hj
      cases h
      exact ignoredByte_rename f hj
    · cases h

theorem decodeInFrame_rename (h : decodeInFrame c b = .ok i) : Instr.rename f i = i := by
  unfold decodeInFrame at h
  split_ifs at h <;> cases h <;> rfl

theorem decodeAwaitData_rename (h : decodeAwaitData c b = .ok i) : Instr.rename f i = i := by
  unfold decodeAwaitData at h
  split_ifs at h <;> cases h <;> rfl

theorem decodeByte_rename (h : decodeByte c b = .ok i) : Instr.rename f i = i := by
  unfold decodeByte at h
  split at h
  · exact decodeInFrame_rename f h
  · split at h
    · exact decodeAwaitData_rename f h
    · exact decodeCommandPosition_rename f h
  · exact decodeCommandPosition_rename f h

theorem decode_rename (c : DecodeCtx) (r : Request) :
    decode c (Request.rename f r) = (decode c r).map (Instr.rename f) := by
  cases r with
  | op o =>
    cases o with
    | rx b =>
      change decodeByte c b = (decodeByte c b).map (Instr.rename f)
      cases hd : decodeByte c b with
      | ok i => exact congrArg Except.ok (decodeByte_rename f hd).symm
      | error e => rfl
    | sendSysex cmd vals =>
      simp only [Request.rename, Op.rename, decode]
      split <;> rfl
    | _ => rfl
  | _ => rfl

/-! ### Steps -/

/-- Every step commutes with a relabelling, its faults and refusals included. -/
theorem step_relabel (p : List Event) (s : State) :
    step (s.relabel f p) = mapNext (State.relabel f p) (step s) := by
  by_cases hs : s.Inv
  · have hs' : (s.relabel f p).Inv := (inv_relabel f p s).2 hs
    cases hq : s.requests with
    | nil =>
      have hq' : (s.relabel f p).requests = [] := congrArg (List.map (Request.rename f)) hq
      rw [step_of_no_request hs hq, step_of_no_request hs' hq']
      rfl
    | cons r rest =>
      have hq' : (s.relabel f p).requests = Request.rename f r :: rest.map (Request.rename f) :=
        congrArg (List.map (Request.rename f)) hq
      have hdec := decode_rename f s.ctx r
      cases hd : decode s.ctx r with
      | ok i =>
        rw [hd] at hdec
        rw [step_of_decode_ok hs hq hd, step_of_decode_ok hs' hq' hdec]
        exact exec_relabel i { s with requests := rest }
      | error e =>
        rw [hd] at hdec
        rw [step_of_decode_error hs hq hd, step_of_decode_error hs' hq' hdec]
        rfl
  · rw [step_of_not_inv hs, step_of_not_inv (mt (inv_relabel f p s).1 hs)]
    rfl

end

/-- Settles O49: the relabelling that puts no event in front. -/
theorem handlersAreNeverInspected : Obligations.HandlersAreNeverInspected :=
  fun f s => State.relabel_nil f ▸ step_relabel f [] s

/-- Settles O47: the step from the state with an empty stream appends `es`; the stream `o` in front of it is a
relabelling, for the state's own stream as for any other. -/
theorem eventsAreAppendedAndNeverRead : Obligations.EventsAreAppendedAndNeverRead := by
  intro s t h
  have hstep (o : List Event) : step { s with out := o } =
      mapNext (State.relabel id o) (step { s with out := [] }) := by
    rw [← step_relabel, State.relabel_id, List.append_nil]
  obtain ⟨u, hu, rfl⟩ := mapNext_next.1 ((hstep s.out).symm.trans h)
  refine ⟨u.out, by rw [State.relabel_id], fun o => ?_⟩
  rw [hstep, hu, mapNext, State.relabel_id, State.relabel_id]

end Sys2Proof.Machine
end

section
/-! SUPPORT. What every effect leaves unchanged (O46), and the shape of the events it emits (O48). -/

namespace Sys2Proof.Machine

section
variable (s : State) (cat : Category) (v : Option HandlerId)

@[simp] theorem State.setSlot_mbLen : (s.setSlot cat v).mbLen = s.mbLen := by cases cat <;> rfl
@[simp] theorem State.setSlot_requests : (s.setSlot cat v).requests = s.requests := by cases cat <;> rfl
@[simp] theorem State.setSlot_out : (s.setSlot cat v).out = s.out := by cases cat <;> rfl

end

section
variable {i : Instr} {s t : State}

theorem Effect.mbLen_eq (h : Effect s i t) : t.mbLen = s.mbLen := by
  cases h with
  | slot => exact State.setSlot_mbLen ..
  | _ => rfl

theorem Effect.requests_eq (h : Effect s i t) : t.requests = s.requests := by
  cases h with
  | slot => exact State.setSlot_requests ..
  | _ => rfl

end

/-- Settles O46: no shape of effect writes either field. -/
theorem execKeepsConfigurationAndRequests : Obligations.ExecKeepsConfigurationAndRequests :=
  fun _ _ _ h => ⟨(exec_effect h).mbLen_eq, (exec_effect h).requests_eq⟩

/-- Every event of the list has the shape its rule gives it (R13, R143, R163). -/
def EventsWf (es : List Event) : Prop := ∀ e ∈ es, e.wf = true

theorem eventsWf_append {es es' : List Event} : EventsWf (es ++ es') ↔ EventsWf es ∧ EventsWf es' :=
  List.forall_mem_append

theorem eventsWf_singleton {e : Event} : EventsWf [e] ↔ e.wf = true := List.forall_mem_singleton

theorem eventsWf_resetEvents (slot : Option HandlerId) : EventsWf (resetEvents slot) := by
  cases slot with
  | none => exact List.forall_mem_nil _
  | some h => exact eventsWf_singleton.2 rfl

theorem eventsWf_txBytes (bs : List Byte) : EventsWf (bs.map .txByte) :=
  List.forall_mem_map.2 fun _ _ => rfl

/-- The delivery of a frame that fits the buffer carries at most 31 bytes, as many as it says (R93, R143). -/
theorem sysexCallback_wf (h : HandlerId) (sub : Byte) (m : Memory) {n : Nat} (hn : n ≤ Config.capacity) :
    (Event.sysexCallback h sub (n - 1) (m.slice 1 n)).wf = true := by
  have hlen : n - 1 ≤ 31 := Nat.sub_le_sub_right hn 1
  simp [Event.wf, hlen]

/-- A completion carries as many bytes as its command armed, at most 32 (R7, R98). -/
theorem multiByteComplete_wf (t : Config.MbTable) (b : Byte) (m : Memory) :
    (Event.multiByteComplete b (m.slice 0 (armedLength t b))).wf = true := by
  have hlen : armedLength t b ≤ 32 := armedLength_le t b
  simp [Event.wf, hlen]

/-- Each effect appends well-shaped events only. -/
theorem Effect.eventsWf {i : Instr} {s t : State} (h : Effect s i t) (hs : EventsWf s.out) : EventsWf t.out := by
  have happend (e : Event) (he : e.wf = true) : EventsWf (s.out ++ [e]) :=
    eventsWf_append.2 ⟨hs, eventsWf_singleton.2 he⟩
  have hreset : EventsWf s.doReset.out := eventsWf_append.2 ⟨hs, eventsWf_resetEvents _⟩
  cases h with
  | sxReset | systemReset | reset | doReset => exact hreset
  | overflow => exact eventsWf_append.2 ⟨happend .overflow rfl, eventsWf_resetEvents _⟩
  | endDelivered g _ _ hc => exact happend _ (sysexCallback_wf g _ _ hc)
  | endEmpty => exact happend _ rfl
  | completed => exact happend _ (multiByteComplete_wf ..)
  | sent => exact eventsWf_append.2 ⟨hs, eventsWf_txBytes _⟩
  | refusedCommand cmd _ hc => exact happend _ (by simp [Event.wf, hc])
  | slot => rwa [State.setSlot_out]
  | endSilent | stored | awaited | opened | armed | ignored | answered => exact hs

/-- Settles O48: an idle step emits nothing, and every other step has an effect. -/
theorem eventsKeepTheirShape : Obligations.EventsKeepTheirShape := by
  intro s t _ hwf hstep
  obtain ⟨-, ⟨-, rfl⟩ | ⟨r, rest, i, -, -, hexec⟩⟩ := step_next.1 hstep
  · exact hwf
  · exact (exec_effect hexec).eventsWf hwf

end Sys2Proof.Machine
end

section
/-! SUPPORT. The invariants I1 to I4 of R27: construction establishes them, and every effect, hence every step and
every run, keeps them (O3, O4). -/

namespace Sys2Proof.Machine

theorem constructed_inv (cfg : Config.MbTable) : (State.constructed cfg).Inv :=
  ⟨nofun, fun _ => ⟨rfl, rfl⟩, Nat.zero_le _, Memory.wf_zeroed⟩

/-- Settles O3: the register values of Table 10-B. -/
theorem constructedStateSatisfiesInv : Obligations.ConstructedStateSatisfiesInv := constructed_inv

section
variable {s t : State} {i : Instr}

theorem setSlot_inv (cat : Category) (v : Option HandlerId) : (s.setSlot cat v).Inv ↔ s.Inv := by
  cases cat <;> exact Iff.rfl

theorem Effect.inv (h : Effect s i t) (hs : s.Inv) : t.Inv := by
  obtain ⟨hawait, hno, hcount, hbuf⟩ := hs
  cases h with
  | sxReset | systemReset | reset | doReset | overflow => exact doReset_inv _
  | endSilent hm | endDelivered _ hm | endEmpty hm =>
    have hno' : s.remaining = 0 ∧ s.armed = 0x00#8 := hno (by simp [hm])
    exact ⟨nofun, fun _ => hno', hcount, hbuf⟩
  | stored b hm hc => exact ⟨hawait, hno, hc, Memory.wf_write hc hbuf⟩
  | awaited d hm hr hi =>
    obtain ⟨-, hcap, harmed⟩ := hawait hm
    have hle : s.remaining - 1 ≤ s.remaining := Nat.sub_le _ _
    exact ⟨fun _ => ⟨Nat.le_sub_one_of_lt hr, hle.trans hcap, hle.trans harmed⟩, absurd hm, hcount,
      Memory.wf_write hi hbuf⟩
  | completed => exact ⟨nofun, fun _ => ⟨rfl, rfl⟩, hcount, Memory.wf_write (by decide) hbuf⟩
  | opened => exact ⟨nofun, fun _ => ⟨rfl, rfl⟩, Nat.zero_le _, hbuf⟩
  | armed b hp =>
    have hpos : 0 < armedLength s.mbLen b := ((armsWait_iff s b).1 hp).2
    exact ⟨fun _ => ⟨hpos, armedLength_le _ _, le_rfl⟩, absurd rfl, hcount, hbuf⟩
  | slot => exact (setSlot_inv _ _).2 ⟨hawait, hno, hcount, hbuf⟩
  | ignored | sent | refusedCommand | answered => exact ⟨hawait, hno, hcount, hbuf⟩

theorem step_inv (h : step s = .next t) : t.Inv := by
  obtain ⟨hs, ⟨-, rfl⟩ | ⟨r, rest, i, -, -, hexec⟩⟩ := step_next.1 h
  · exact hs
  · exact (exec_effect hexec).inv hs

/-- A run of `n + 1` steps that completes is a step that completes and a run of `n` steps from there. -/
theorem run_succ_next {n : Nat} : run (n + 1) s = .next t ↔ ∃ u, step s = .next u ∧ run n u = .next t := by
  have hstep : core.step s = step s := rfl
  simp only [run, Host.Core.run, hstep]
  cases step s <;> simp

/-- What every completing step keeps, every completing run keeps. -/
theorem run_keeps {P : State → Prop} (hstep : ∀ s t, P s → step s = .next t → P t) {n : Nat} (hs : P s)
    (h : run n s = .next t) : P t := by
  induction n generalizing s with
  | zero => cases h; exact hs
  | succ n ih =>
    obtain ⟨u, hu, hrest⟩ := run_succ_next.1 h
    exact ih (hstep s u hs hu) hrest

end

/-- Settles O4: every effect keeps the invariants; the pending requests are no part of them. -/
theorem everyStepKeepsInv : Obligations.EveryStepKeepsInv :=
  ⟨fun _ _ _ hs h => (exec_effect h).inv hs, fun _ _ _ => step_inv,
    fun cfg _ _ _ => run_keeps (fun _ _ _ => step_inv) (constructed_inv cfg)⟩

end Sys2Proof.Machine
end

section
/-! SUPPORT. Which effects write a slot (O31) and which write a register of the parser (O45). -/

namespace Sys2Proof.Machine

/-- The slot of a category (R25, R26). -/
def State.slot (s : State) : Category → Option HandlerId
  | .systemReset => s.slotReset
  | .sysex => s.slotSysex

section
variable {s t : State} {i : Instr} {cat : Category}

theorem setSlot_slot_other {cat' : Category} {v : Option HandlerId} (h : cat' ≠ cat) :
    (s.setSlot cat' v).slot cat = s.slot cat :=
  match cat', cat, h with
  | .systemReset, .sysex, _ => rfl
  | .sysex, .systemReset, _ => rfl

theorem Effect.slot_eq (h : Effect s i t) (hw : writesSlot i ≠ some cat) : t.slot cat = s.slot cat := by
  cases h with
  | slot _ cat' _ hw' => exact setSlot_slot_other fun e => hw (e ▸ hw')
  | _ => cases cat <;> rfl

end

/-- Settles O31: a slot's value is written by the slot effect of its own category alone. -/
theorem onlyRegistryWritesSlots : Obligations.OnlyRegistryWritesSlots :=
  fun _ _ _ h => ⟨(exec_effect h).slot_eq (cat := .systemReset), (exec_effect h).slot_eq (cat := .sysex)⟩

/-- Settles O45: the effects, grouped by the registers they write. -/
theorem registersHaveTheirListedWriters : Obligations.RegistersHaveTheirListedWriters := by
  intro i s t h
  cases exec_effect h with
  | sxReset | systemReset | reset | doReset | overflow =>
    refine ⟨fun _ => .inl ?_, fun _ => .inl ?_, fun _ => .inl ?_, fun _ => .inl ?_, fun _ => .inl ?_⟩ <;>
      simp [Claims.RunsReset]
  | endSilent | endDelivered | endEmpty =>
    exact ⟨fun _ => by simp, absurd rfl, absurd rfl, absurd rfl, absurd rfl⟩
  | stored => exact ⟨absurd rfl, absurd rfl, fun _ => by simp, absurd rfl, fun _ => by simp⟩
  | awaited => exact ⟨absurd rfl, fun _ => by simp, absurd rfl, absurd rfl, fun _ => by simp⟩
  | completed => exact ⟨fun _ => by simp, fun _ => by simp, absurd rfl, fun _ => by simp, fun _ => by simp⟩
  | opened => exact ⟨fun _ => by simp, fun _ => by simp, fun _ => by simp, fun _ => by simp, absurd rfl⟩
  | armed => exact ⟨fun _ => by simp, fun _ => by simp, absurd rfl, fun _ => by simp, absurd rfl⟩
  | slot _ cat =>
    cases cat <;> exact ⟨absurd rfl, absurd rfl, absurd rfl, absurd rfl, absurd rfl⟩
  | ignored | sent | refusedCommand | answered =>
    exact ⟨absurd rfl, absurd rfl, absurd rfl, absurd rfl, absurd rfl⟩

end Sys2Proof.Machine
end

section
/-! SUPPORT. Hidden state (R34). Two states that look the same select the same rows, and every shared operation takes
them to outcomes that look the same; so every instruction and every step does (O50). -/

namespace Sys2Proof.Machine

theorem not_live_of_idle {s : State} (hm : s.mode = .idle) (i : Nat) : ¬ s.live i := by
  simp [State.live, hm]

section
variable {s s' : State}

/-! ### What states that look the same have in common -/

theorem SameVisible.frame_cells (h : SameVisible s s') (hm : s.mode = .inSysex) {i : Nat} (hi : i < s.count) :
    s.buf.read i = s'.buf.read i := h.cells i (.inl ⟨hm, hi⟩)

theorem SameVisible.wait_cells (h : SameVisible s s') (hm : s.mode = .awaitMB) {i : Nat} (hlo : s.remaining ≤ i)
    (hhi : i < armedLength s.mbLen s.armed) : s.buf.read i = s'.buf.read i := h.cells i (.inr ⟨hm, hlo, hhi⟩)

theorem SameVisible.ctx_of_frame (h : SameVisible s s') (hm : s.mode = .inSysex) : s.ctx = s'.ctx := by
  simp only [State.ctx, h.mode, h.count hm, h.remaining, h.mbLen]

theorem SameVisible.ctx_eq (h : SameVisible s s') : s'.ctx = { s.ctx with count := s'.count } := by
  simp only [State.ctx, h.mode, h.remaining, h.mbLen]

/-- A condition that holds in a frame only does not tell the states apart. -/
theorem SameVisible.frame_guard (h : SameVisible s s') {g : DecodeCtx → Bool} (hg : g s.ctx = true)
    (hm : s.mode = .inSysex) : g s'.ctx = true := h.ctx_of_frame hm ▸ hg

/-- A condition that does not read `count` does not tell the states apart. -/
theorem SameVisible.guard (h : SameVisible s s') {g : DecodeCtx → Bool}
    (hg : ∀ n, g { s.ctx with count := n } = g s.ctx) (hs : g s.ctx = true) : g s'.ctx = true :=
  calc
    g s'.ctx = g { s.ctx with count := s'.count } := congrArg g h.ctx_eq
    _ = g s.ctx := hg _
    _ = true := hs

/-- Outside a frame no row's selection reads `count` (Table 30-D). -/
theorem decode_count {c : DecodeCtx} (hm : c.mode ≠ .inSysex) (n : Nat) (r : Request) :
    decode { c with count := n } r = decode c r := by
  obtain ⟨mode, count, remaining, mbLen⟩ := c
  cases mode with
  | inSysex => exact absurd rfl hm
  | idle | awaitMB => rfl

theorem SameVisible.decode_eq (h : SameVisible s s') (r : Request) : decode s.ctx r = decode s'.ctx r := by
  by_cases hm : s.mode = .inSysex
  · rw [h.ctx_of_frame hm]
  · exact (decode_count hm _ r).symm.trans (congrArg (decode · r) h.ctx_eq.symm)

/-! ### Updates that keep the states alike -/

theorem SameVisible.doReset (h : SameVisible s s') : SameVisible s.doReset s'.doReset :=
  { h with
    mode := rfl, remaining := rfl, armed := rfl, count := nofun
    out := by simp only [State.doReset_out, h.out, h.slotReset]
    cells := fun i hi => absurd hi (not_live_of_idle rfl i) }

theorem SameVisible.emit (h : SameVisible s s') {e e' : Event} (he : e = e') :
    SameVisible (s.emit e) (s'.emit e') :=
  { h with out := by simp only [State.emit_out, h.out, he], cells := h.cells }

theorem SameVisible.transmit (h : SameVisible s s') (bs : List Byte) :
    SameVisible (s.transmit bs) (s'.transmit bs) :=
  { h with out := by simp only [State.transmit_out, h.out], cells := h.cells }

theorem SameVisible.answer (h : SameVisible s s') (r : FuncResult) : SameVisible (s.answer r) (s'.answer r) :=
  { h with result := rfl, cells := h.cells }

theorem SameVisible.setSlot (h : SameVisible s s') (cat : Category) (v : Option HandlerId) :
    SameVisible (s.setSlot cat v) (s'.setSlot cat v) :=
  match cat with
  | .systemReset => { h with slotReset := rfl, cells := h.cells }
  | .sysex => { h with slotSysex := rfl, cells := h.cells }

/-- The frame ends: its cells turn stale (R93, R94). -/
theorem SameVisible.closeFrame (h : SameVisible s s') :
    SameVisible { s with mode := .idle } { s' with mode := .idle } :=
  { h with mode := rfl, count := nofun, cells := fun i hi => absurd hi (not_live_of_idle rfl i) }

/-- An empty frame has no cell to expose (R99). -/
theorem SameVisible.openFrame (h : SameVisible s s') :
    SameVisible { s with mode := .inSysex, count := 0, remaining := 0, armed := 0x00#8 }
      { s' with mode := .inSysex, count := 0, remaining := 0, armed := 0x00#8 } :=
  { h with
    mode := rfl, count := fun _ => rfl, remaining := rfl, armed := rfl
    cells := fun i hi => by simp [State.live] at hi }

/-- A wait that awaits all its bytes has no cell to expose (R103). -/
theorem SameVisible.startWait (h : SameVisible s s') (b : Byte) :
    SameVisible { s with mode := .awaitMB, remaining := armedLength s.mbLen b, armed := b }
      { s' with mode := .awaitMB, remaining := armedLength s'.mbLen b, armed := b } :=
  { h with
    mode := rfl, count := nofun, armed := rfl
    remaining := congrArg (armedLength · b) h.mbLen
    cells := fun i hi => by
      simp only [State.live, reduceCtorEq, false_and, true_and, false_or] at hi
      omega }

theorem read_write_congr {m m' : Memory} (hm : m.wf = true) (hm' : m'.wf = true) {i j : Nat} (b : Byte)
    (h : j ≠ i → m.read j = m'.read j) : (m.write i b).read j = (m'.write i b).read j := by
  rw [Memory.read_write hm, Memory.read_write hm']
  split
  · rfl
  · exact h ‹_›

/-- The frame's new cell holds the same byte in both (R95). -/
theorem SameVisible.storeFrame (h : SameVisible s s') (hb : s.buf.wf = true) (hb' : s'.buf.wf = true)
    (hm : s.mode = .inSysex) (b : Byte) :
    SameVisible { s with buf := s.buf.write s.count b, count := s.count + 1 }
      { s' with buf := s'.buf.write s'.count b, count := s'.count + 1 } :=
  { h with
    count := fun _ => congrArg (· + 1) (h.count hm)
    cells := fun i hi => by
      have hi' : i < s.count + 1 := by simpa [State.live, hm] using hi
      rw [← h.count hm]
      exact read_write_congr hb hb' b fun hne => h.frame_cells hm (by omega) }

/-- The wait's new cell holds the same byte in both (R97). -/
theorem SameVisible.storeWait (h : SameVisible s s') (hb : s.buf.wf = true) (hb' : s'.buf.wf = true)
    (hm : s.mode = .awaitMB) (b : Byte) :
    SameVisible { s with buf := s.buf.write (s.remaining - 1) b, remaining := s.remaining - 1 }
      { s' with buf := s'.buf.write (s'.remaining - 1) b, remaining := s'.remaining - 1 } :=
  { h with
    remaining := congrArg (· - 1) h.remaining
    cells := fun i hi => by
      obtain ⟨hlo, hhi⟩ : s.remaining - 1 ≤ i ∧ i < armedLength s.mbLen s.armed := by
        simpa [State.live, hm] using hi
      rw [← h.remaining]
      exact read_write_congr hb hb' b fun hne => h.wait_cells hm (by omega) hhi }

/-- The last byte of a wait returns to `Idle`, where no cell is exposed (R98). -/
theorem SameVisible.completeWait (h : SameVisible s s') (m m' : Memory) :
    SameVisible { s with buf := m, remaining := 0, mode := .idle, armed := 0x00#8 }
      { s' with buf := m', remaining := 0, mode := .idle, armed := 0x00#8 } :=
  { h with
    mode := rfl, remaining := rfl, armed := rfl, count := nofun
    cells := fun i hi => absurd hi (not_live_of_idle rfl i) }

end

/-! ### Outcomes -/

/-- A next state of `r` is matched by one of `r'` that looks the same. -/
def Follows (r r' : Result) : Prop := ∀ t, r = .next t → ∃ t', r' = .next t' ∧ SameVisible t t'

theorem follows_next {t t' : State} (h : SameVisible t t') : Follows (.next t) (.next t') := by
  intro u hu
  cases hu
  exact ⟨t', rfl, h⟩

theorem select_follows {c c' : Bool} {r r' : Result} (hc : c = true → c' = true)
    (hr : c = true → Follows r r') : Follows (select c r) (select c' r') := by
  intro t ht
  obtain ⟨hsel, hnext⟩ := select_next.1 ht
  obtain ⟨t', hnext', hv⟩ := hr hsel t hnext
  exact ⟨t', select_next.2 ⟨hc hsel, hnext'⟩, hv⟩

section
variable {s s' : State}

theorem store_follows {i i' : Nat} {b : Byte} {k k' : State → Result} (hi : i = i')
    (h : Follows (k { s with buf := s.buf.write i b }) (k' { s' with buf := s'.buf.write i' b })) :
    Follows (s.store i b k) (s'.store i' b k') := by
  intro t ht
  obtain ⟨hlt, hnext⟩ := store_next.1 ht
  obtain ⟨t', hnext', hv⟩ := h t hnext
  exact ⟨t', store_next.2 ⟨hi ▸ hlt, hnext'⟩, hv⟩

theorem load_follows {lo hi hi' : Nat} {k k' : List Byte → Result} (hhi : hi = hi')
    (hcells : ∀ i, lo ≤ i → i < hi → s.buf.read i = s'.buf.read i)
    (h : ∀ data, Follows (k data) (k' data)) : Follows (s.load lo hi k) (s'.load lo hi' k') := by
  subst hhi
  intro t ht
  obtain ⟨hle, hnext⟩ := load_next.1 ht
  rw [Memory.slice_congr hcells] at hnext
  obtain ⟨t', hnext', hv⟩ := h _ t hnext
  exact ⟨t', load_next.2 ⟨hle, hnext'⟩, hv⟩

theorem SameVisible.ignoreByte (h : SameVisible s s') (b : Byte) : Follows (ignoreByte s b) (ignoreByte s' b) :=
  select_follows (h.guard (g := (ignoredHere · b)) fun _ => rfl) fun _ => follows_next h

/-- The sysex callback carries the open frame's cells and no other (R93). -/
theorem SameVisible.dispatchSysex (h : SameVisible s s') (hm : s.mode = .inSysex) (hc : 1 ≤ s.count) :
    Follows (State.dispatchSysex { s with mode := .idle }) (State.dispatchSysex { s' with mode := .idle }) := by
  intro t ht
  rcases dispatchSysex_next.1 ht with ⟨hslot, rfl⟩ | ⟨g, hslot, hle, rfl⟩
  · exact ⟨_, dispatchSysex_next.2 (.inl ⟨h.slotSysex ▸ hslot, rfl⟩), h.closeFrame⟩
  · have hcount : s.count = s'.count := h.count hm
    have hsub : s.cell 0 = s'.cell 0 := h.frame_cells hm hc
    have hdata : s.buf.slice 1 s.count = s'.buf.slice 1 s.count :=
      Memory.slice_congr fun _ _ hi => h.frame_cells hm hi
    have hevent : Event.sysexCallback g (s.cell 0) (s.count - 1) (s.buf.slice 1 s.count) =
        .sysexCallback g (s'.cell 0) (s'.count - 1) (s'.buf.slice 1 s'.count) := by
      rw [hsub, hdata, hcount]
    exact ⟨_, dispatchSysex_next.2 (.inr ⟨g, h.slotSysex ▸ hslot, hcount ▸ hle, rfl⟩),
      h.closeFrame.emit hevent⟩

/-- The last byte of a wait hands over the cells written since it was armed, itself included (R98). -/
theorem SameVisible.mbDataLast (h : SameVisible s s') (hb : s.buf.wf = true) (hb' : s'.buf.wf = true)
    (d : Septet) : Follows (execMbDataLast d s) (execMbDataLast d s') := by
  refine select_follows (h.guard fun _ => rfl) fun hc => store_follows rfl ?_
  obtain ⟨hm, hr⟩ := (awaitsLast_iff s).1 hc
  have hlen : armedLength s.mbLen s.armed = armedLength s'.mbLen s'.armed := by rw [h.mbLen, h.armed]
  refine load_follows hlen (fun i _ hi => ?_) fun data => follows_next ((h.completeWait _ _).emit ?_)
  · exact read_write_congr hb hb' _ fun hne => h.wait_cells hm (by omega) hi
  · rw [h.armed]

/-! ### Instructions and steps -/

/-- Every instruction that completes in one state completes in the other, with outcomes that look the same. -/
theorem exec_follows (h : SameVisible s s') (hb : s.buf.wf = true) (hb' : s'.buf.wf = true) (i : Instr) :
    Follows (exec i s) (exec i s') := by
  have hreset : Follows (.next s.doReset) (.next s'.doReset) := follows_next h.doReset
  cases i with
  | sxReset => exact select_follows (h.guard fun _ => rfl) fun _ => hreset
  | sxEnd =>
    have hframe := (frameNotEmpty_iff s).1
    exact select_follows (fun hc => h.frame_guard hc (hframe hc).1)
      fun hc => h.dispatchSysex (hframe hc).1 (hframe hc).2
  | sxEndEmpty =>
    exact select_follows (fun hc => h.frame_guard hc ((frameEmpty_iff s).1 hc).1)
      fun _ => follows_next (h.closeFrame.emit rfl)
  | sxData b =>
    have hframe (hc : (frameHasRoom s.ctx && framePayloadByte b) = true) : s.mode = .inSysex :=
      ((frameHasRoom_iff s).1 (Bool.and_eq_true_iff.1 hc).1).1
    exact select_follows
      (fun hc => h.frame_guard (g := (frameHasRoom · && framePayloadByte b)) hc (hframe hc))
      fun hc => store_follows (h.count (hframe hc)) (follows_next (h.storeFrame hb hb' (hframe hc) b))
  | sxDataOvf b =>
    exact select_follows
      (fun hc => h.frame_guard (g := (frameFull · && framePayloadByte b)) hc
        ((frameFull_iff s).1 (Bool.and_eq_true_iff.1 hc).1).1)
      fun _ => follows_next (h.emit rfl).doReset
  | mbData d =>
    exact select_follows (h.guard fun _ => rfl) fun hc =>
      store_follows (congrArg (· - 1) h.remaining)
        (follows_next (h.storeWait hb hb' ((awaitsMore_iff s).1 hc).1 (dataByte d)))
  | mbDataLast d => exact h.mbDataLast hb hb' d
  | startSysex =>
    exact select_follows (h.guard (g := (commandPosition · Config.startSysexByte)) fun _ => rfl)
      fun _ => follows_next h.openFrame
  | systemReset =>
    exact select_follows (h.guard (g := (commandPosition · Config.systemResetByte)) fun _ => rfl) fun _ => hreset
  | arm b =>
    exact select_follows (h.guard (g := (armsWait · b && armingByte b)) fun _ => rfl)
      fun _ => follows_next (h.startWait b)
  | reset => exact hreset
  | doReset => exact hreset
  | attach cat g => exact follows_next (h.setSlot cat (some g))
  | detach cat => exact follows_next (h.setSlot cat none)
  | onSystemReset g => exact follows_next (h.setSlot .systemReset (some g))
  | onSysex g => exact follows_next (h.setSlot .sysex (some g))
  | sendSysex cmd vals => exact select_follows id fun _ => follows_next (h.transmit _)
  | sendSysexBad cmd vals => exact select_follows id fun _ => follows_next (h.emit rfl)
  | classify b => exact follows_next (h.answer _)
  | isData b => exact follows_next (h.answer _)
  | enc7 v => exact follows_next (h.answer _)
  | dec7 lsb msb => exact follows_next (h.answer _)
  | decodePayload data =>
    simp only [exec, execDecodePayload]
    cases decodePayload data with
    | some vs => exact follows_next (h.answer _)
    | none => exact nofun
  | _ => exact h.ignoreByte _

theorem step_follows (h : SameVisible s s') (hs' : s'.Inv) : Follows (step s) (step s') := by
  intro t ht
  obtain ⟨hs, ⟨hq, rfl⟩ | ⟨r, rest, i, hq, hd, hexec⟩⟩ := step_next.1 ht
  · exact ⟨s', step_of_no_request hs' (h.requests ▸ hq), h⟩
  · have hrest : SameVisible { s with requests := rest } { s' with requests := rest } :=
      { h with requests := rfl, cells := h.cells }
    rw [step_of_decode_ok hs' (h.requests ▸ hq) (h.decode_eq r ▸ hd)]
    obtain ⟨-, -, -, hbuf⟩ := hs
    obtain ⟨-, -, -, hbuf'⟩ := hs'
    exact exec_follows hrest hbuf hbuf' i t hexec

end

/-- Settles O50: a step reads no hidden cell and, outside a frame, no `count`. -/
theorem hiddenStateIsNeverObserved : Obligations.HiddenStateIsNeverObserved :=
  fun _ _ t _ hs' h => step_follows h hs' t

end Sys2Proof.Machine
end

section
/-! SUPPORT. The faults. Two rows can ask for a cell that does not exist, each in states outside the invariants alone;
so those two faults can be met (O52), and no run from a state within the invariants meets one (O51). -/

namespace Sys2Proof.Machine

section
variable {s : State} {f : Fault}

/-- A store that faults names the missing index, or its continuation faults. -/
theorem store_fault {i : Nat} {b : Byte} {k : State → Result} :
    s.store i b k = .fault f ↔
      (i < Config.capacity ∧ k { s with buf := s.buf.write i b } = .fault f) ∨
        (Config.capacity ≤ i ∧ f = .bufIndexOutOfRange i) := by
  unfold State.store
  split <;> simp_all [eq_comm]

/-- A load that faults names the last index asked for, or its continuation faults. -/
theorem load_fault {lo hi : Nat} {k : List Byte → Result} :
    s.load lo hi k = .fault f ↔
      (hi ≤ Config.capacity ∧ k (s.buf.slice lo hi) = .fault f) ∨
        (Config.capacity < hi ∧ f = .bufIndexOutOfRange (hi - 1)) := by
  unfold State.load
  split <;> simp_all [eq_comm]

/-- The sysex dispatch faults where it delivers a frame that is longer than the buffer. -/
theorem dispatchSysex_fault :
    s.dispatchSysex = .fault f ↔
      ∃ h, s.slotSysex = some h ∧ Config.capacity < s.count ∧ f = .bufIndexOutOfRange (s.count - 1) := by
  unfold State.dispatchSysex
  split <;> simp_all [load_fault]

/-- The accesses to a cell that does not exist, each with the fault that names its index (R48; entry 10). -/
inductive MissingAccess (s : State) : Instr → Fault → Prop where
  | storeInWait (d : Septet) (hm : s.mode = .awaitMB) (hr : Config.capacity < s.remaining) :
      MissingAccess s (.mbData d) (.bufIndexOutOfRange (s.remaining - 1))
  | deliverFrame (h : HandlerId) (hm : s.mode = .inSysex) (hc : Config.capacity < s.count)
      (hs : s.slotSysex = some h) : MissingAccess s .sxEnd (.bufIndexOutOfRange (s.count - 1))

theorem MissingAccess.exec_fault {i : Instr} (h : MissingAccess s i f) : exec i s = .fault f := by
  cases h with
  | storeInWait d hm hr =>
    have hmore : 1 < s.remaining := lt_trans (by decide) hr
    exact select_fault.2 ⟨(awaitsMore_iff s).2 ⟨hm, hmore⟩, store_fault.2 (.inr ⟨Nat.le_sub_one_of_lt hr, rfl⟩)⟩
  | deliverFrame h hm hc hs =>
    have hone : 1 ≤ s.count := le_trans (by decide) hc.le
    exact select_fault.2 ⟨(frameNotEmpty_iff s).2 ⟨hm, hone⟩, dispatchSysex_fault.2 ⟨h, hs, hc, rfl⟩⟩

/-- An instruction that faults makes one of the missing accesses. The other two rows that reach the buffer stay in it:
a frame's byte is stored where there is room, a completion loads no more than `MB_LEN` allows. -/
theorem missingAccess_of_exec_fault {i : Instr} (h : exec i s = .fault f) : MissingAccess s i f := by
  cases i with
  | mbData d =>
    obtain ⟨hsel, he⟩ := select_fault.1 h
    obtain ⟨hm, hr⟩ := (awaitsMore_iff s).1 hsel
    obtain ⟨-, he⟩ | ⟨hi, rfl⟩ := store_fault.1 he
    · cases he
    · exact .storeInWait d hm (by omega)
  | sxEnd =>
    obtain ⟨hsel, he⟩ := select_fault.1 h
    obtain ⟨hm, -⟩ := (frameNotEmpty_iff s).1 hsel
    obtain ⟨g, hs, hc, rfl⟩ := dispatchSysex_fault.1 he
    exact .deliverFrame g hm hc hs
  | sxData b =>
    obtain ⟨hsel, he⟩ := select_fault.1 h
    rw [Bool.and_eq_true, frameHasRoom_iff] at hsel
    obtain ⟨⟨-, hroom⟩, -⟩ := hsel
    obtain ⟨-, he⟩ | ⟨hi, -⟩ := store_fault.1 he
    · cases he
    · exact absurd hroom hi.not_gt
  | mbDataLast d =>
    obtain ⟨-, he⟩ := select_fault.1 h
    obtain ⟨-, he⟩ | ⟨hi, -⟩ := store_fault.1 he
    · obtain ⟨-, he⟩ | ⟨hlen, -⟩ := load_fault.1 he
      · cases he
      · exact absurd hlen (armedLength_le _ _).not_gt
    · exact absurd hi (by decide)
  | decodePayload data =>
    simp only [exec, execDecodePayload] at h
    split at h <;> cases h
  | reset | doReset | attach | detach | onSystemReset | onSysex | classify | isData | enc7 | dec7 => cases h
  | _ => cases (select_fault.1 h).2

theorem exec_fault_iff {i : Instr} : exec i s = .fault f ↔ MissingAccess s i f :=
  ⟨missingAccess_of_exec_fault, MissingAccess.exec_fault⟩

/-- I1 and I3 rule the missing accesses out (R27, R48). -/
theorem not_missingAccess_of_inv {i : Instr} (hs : s.Inv) : ¬ MissingAccess s i f := by
  obtain ⟨hawait, -, hcount, -⟩ := hs
  intro h
  cases h with
  | storeInWait _ hm hr =>
    obtain ⟨-, hcap, -⟩ := hawait hm
    exact hcap.not_gt hr
  | deliverFrame _ _ hc => exact hcount.not_gt hc

theorem exec_ne_fault {i : Instr} (hs : s.Inv) : exec i s ≠ .fault f :=
  mt exec_fault_iff.1 (not_missingAccess_of_inv hs)

/-- A step refuses a state outside the invariants, and within them its instruction does not fault. -/
theorem step_ne_fault : step s ≠ .fault f := by
  by_cases hs : s.Inv
  · cases hq : s.requests with
    | nil => rw [step_of_no_request hs hq]; exact nofun
    | cons r rest =>
      cases hd : decode s.ctx r with
      | ok i =>
        rw [step_of_decode_ok hs hq hd]
        exact exec_ne_fault (s := { s with requests := rest }) hs
      | error e => rw [step_of_decode_error hs hq hd]; exact nofun
  · rw [step_of_not_inv hs]; exact nofun

/-- A run of `n + 1` steps that faults faults in its first step or in the `n` steps from there. -/
theorem coreRun_succ_fault {M : Host.Core} {n : Nat} {s : M.State} {f : M.Fault} :
    M.run (n + 1) s = .fault f ↔ M.step s = .fault f ∨ ∃ u, M.step s = .next u ∧ M.run n u = .fault f := by
  rw [Host.Core.run]
  cases M.step s <;> simp

theorem run_ne_fault (n : Nat) (s : State) : run n s ≠ .fault f := by
  induction n generalizing s with
  | zero => exact nofun
  | succ n ih =>
    intro h
    obtain hstep | ⟨u, -, hrest⟩ := coreRun_succ_fault.1 h
    · exact step_ne_fault hstep
    · exact ih u hrest

end

/-- Settles O51: by induction on the number of steps. Outside the invariants a step refuses, so a run faults from no
state at all. -/
theorem invStatesNeverFault : Obligations.InvStatesNeverFault :=
  fun s _ n _ => run_ne_fault n s

/-- Settles O52: the two missing accesses. -/
theorem missingCellFaults : Obligations.MissingCellFaults :=
  ⟨fun _ d hm hr => (MissingAccess.storeInWait d hm hr).exec_fault,
    fun _ h hm hc hs => (MissingAccess.deliverFrame h hm hc hs).exec_fault⟩

end Sys2Proof.Machine
end

section
/-! SUPPORT. Which row takes a byte that arms a wait or that a wait stores, and the effect of the three rows of a
multi-byte message where they are selected (R97, R98, R103). -/

namespace Sys2Proof.Machine

section
variable {c : DecodeCtx} {b : Byte}

/-- In command position neither the sysex test nor the multi-byte test takes the byte (R64, R84). -/
theorem decodeByte_of_commandPosition (h : commandPosition c b = true) :
    decodeByte c b = decodeCommandPosition c b := by
  unfold commandPosition at h
  unfold decodeByte
  cases hm : c.mode <;> simp_all

/-- Row 10 of Table 30-D. -/
theorem decodeByte_arm (h : armsWait c b = true) (hb : armingByte b = true) : decodeByte c b = .ok (.arm b) := by
  obtain ⟨hp, hlen⟩ := Bool.and_eq_true_iff.1 h
  obtain ⟨hstart, hreset⟩ := (armingByte_iff b).1 hb
  rw [decodeByte_of_commandPosition hp, decodeCommandPosition, if_neg (mt (command_startSysex b).1 hstart),
    if_neg (mt (command_systemReset b).1 hreset), if_pos (of_decide_eq_true hlen)]

/-- In a wait a data byte is row 6's or row 7's, by the bytes awaited. -/
theorem decodeByte_dataByte (hm : c.mode = .awaitMB) (d : Septet) :
    decodeByte c (dataByte d) =
      if 1 < c.remaining then .ok (.mbData d)
      else if c.remaining = 1 then .ok (.mbDataLast d)
      else .error .noRow := by
  have hd : (dataByte d).setWidth 7 = d := dataField_dataByte d
  simp only [decodeByte, hm, isData_dataByte, if_true, decodeAwaitData, hd]

end

section
variable {s : State}

theorem exec_arm {b : Byte} (h : armsWait s.ctx b = true) (hb : armingByte b = true) :
    exec (.arm b) s = .next { s with mode := .awaitMB, remaining := armedLength s.mbLen b, armed := b } :=
  select_next.2 ⟨Bool.and_eq_true_iff.2 ⟨h, hb⟩, rfl⟩

theorem exec_mbData (d : Septet) (hm : s.mode = .awaitMB) (hr : 1 < s.remaining)
    (hcap : s.remaining ≤ Config.capacity) :
    exec (.mbData d) s =
      .next { s with buf := s.buf.write (s.remaining - 1) (dataByte d), remaining := s.remaining - 1 } :=
  select_next.2 ⟨(awaitsMore_iff s).2 ⟨hm, hr⟩, store_next.2 ⟨by omega, rfl⟩⟩

theorem exec_mbDataLast (d : Septet) (hm : s.mode = .awaitMB) (hr : s.remaining = 1) :
    exec (.mbDataLast d) s =
      .next (State.emit
        { s with buf := s.buf.write 0 (dataByte d), remaining := 0, mode := .idle, armed := 0x00#8 }
        (.multiByteComplete s.armed
          (Memory.slice (s.buf.write 0 (dataByte d)) 0 (armedLength s.mbLen s.armed)))) :=
  select_next.2 ⟨(awaitsLast_iff s).2 ⟨hm, hr⟩,
    store_next.2 ⟨by decide, load_next.2 ⟨armedLength_le _ _, rfl⟩⟩⟩

end

end Sys2Proof.Machine
end

section
/-! SUPPORT. The buffer filled downward (R44): the first byte lands at the top, the last at index 0. -/

namespace Sys2Proof.Machine.Memory

/-- The buffer after a wait has stored the bytes of a list: each lands at the number of bytes still to come. -/
def storeDown : Memory → List Byte → Memory
  | m, [] => m
  | m, b :: bs => storeDown (m.write bs.length b) bs

theorem slice_zero_succ (m : Memory) (n : Nat) : slice m 0 (n + 1) = slice m 0 n ++ [read m n] := by
  simp [slice, List.range'_1_concat]

theorem getElem?_slice_zero (m : Memory) {n k : Nat} (hk : k < n) : (slice m 0 n)[k]? = some (read m k) := by
  simp [slice, hk]

/-- The cells from the number of bytes on are not touched. -/
theorem read_storeDown_above {m : Memory} {bs : List Byte} {i : Nat} (hi : bs.length ≤ i) :
    read (storeDown m bs) i = read m i := by
  induction bs generalizing m with
  | nil => rfl
  | cons b bs ih =>
    have hlt : bs.length < i := hi
    rw [storeDown, ih hlt.le, read_write_other hlt.ne']

/-- The cells below hold the bytes in the reverse of arrival order. -/
theorem slice_storeDown {m : Memory} {bs : List Byte} (hm : m.wf = true) (hcap : bs.length ≤ Config.capacity) :
    slice (storeDown m bs) 0 bs.length = bs.reverse := by
  induction bs generalizing m with
  | nil => rfl
  | cons b bs ih =>
    have hlt : bs.length < Config.capacity := hcap
    rw [List.length_cons, slice_zero_succ, List.reverse_cons, storeDown, ih (wf_write hlt hm) hlt.le,
      read_storeDown_above le_rfl, read_write_same hm]

/-- The byte that arrived `k`-th is the `k`-th cell from the top. -/
theorem getElem?_storeDown {m : Memory} {bs : List Byte} {k : Nat} (hm : m.wf = true)
    (hcap : bs.length ≤ Config.capacity) (hk : k < bs.length) :
    bs[k]? = some (read (storeDown m bs) (bs.length - 1 - k)) := by
  rw [← getElem?_slice_zero _ (show bs.length - 1 - k < bs.length by omega), slice_storeDown hm hcap,
    List.getElem?_reverse (by omega)]
  congr 1
  omega

end Sys2Proof.Machine.Memory
end

section
/-! SUPPORT. A whole multi-byte message, byte by byte (R44; O19). -/

namespace Sys2Proof.Machine

/-- The state after a wait has received all its bytes `bs`, with the requests `rest` still pending. -/
def State.afterWait (s : State) (bs : List Byte) (rest : List Request) : State :=
  { s with
    mode := .idle, remaining := 0, armed := 0x00#8, buf := s.buf.storeDown bs, requests := rest
    out := s.out ++ [.multiByteComplete s.armed ((s.buf.storeDown bs).slice 0 (armedLength s.mbLen s.armed))] }

section
variable {s : State} {d : Septet} {rest : List Request}

theorem step_mbData (hs : s.Inv) (hm : s.mode = .awaitMB) (hr : 1 < s.remaining)
    (hq : s.requests = .op (.rx (dataByte d)) :: rest) :
    step s = .next { s with
      buf := s.buf.write (s.remaining - 1) (dataByte d), remaining := s.remaining - 1, requests := rest } := by
  obtain ⟨-, hcap, -⟩ := hs.1 hm
  have hdec : decodeByte s.ctx (dataByte d) = .ok (.mbData d) := (decodeByte_dataByte hm d).trans (if_pos hr)
  exact (step_of_decode_ok hs hq hdec).trans (exec_mbData (s := { s with requests := rest }) d hm hr hcap)

theorem step_mbDataLast (hs : s.Inv) (hm : s.mode = .awaitMB) (hr : s.remaining = 1)
    (hq : s.requests = .op (.rx (dataByte d)) :: rest) :
    step s = .next (s.afterWait [dataByte d] rest) := by
  have hdec : decodeByte s.ctx (dataByte d) = .ok (.mbDataLast d) := by
    rw [decodeByte_dataByte hm, State.ctx_remaining, hr]
    rfl
  exact (step_of_decode_ok hs hq hdec).trans (exec_mbDataLast (s := { s with requests := rest }) d hm hr)

theorem step_arm {b : Byte} (hs : s.Inv) (h : armsWait s.ctx b = true) (hb : armingByte b = true)
    (hq : s.requests = .op (.rx b) :: rest) :
    step s = .next { s with
      mode := .awaitMB, remaining := armedLength s.mbLen b, armed := b, requests := rest } :=
  (step_of_decode_ok hs hq (decodeByte_arm h hb)).trans (exec_arm (s := { s with requests := rest }) h hb)

/-- A wait that is given the bytes it awaits completes: all but the last step store downward, the last one also
hands the message over. -/
theorem run_wait (d : Septet) (ds : List Septet) (hs : s.Inv) (hm : s.mode = .awaitMB)
    (hr : s.remaining = ds.length + 1) (hq : s.requests = driverLoop ((d :: ds).map dataByte) ++ rest) :
    run (ds.length + 1) s = .next (s.afterWait ((d :: ds).map dataByte) rest) := by
  induction ds generalizing s d with
  | nil => exact run_succ_next.2 ⟨_, step_mbDataLast hs hm hr hq, rfl⟩
  | cons e ds ih =>
    have hstep := step_mbData hs hm (hr ▸ Nat.lt_add_of_pos_left (Nat.succ_pos _)) hq
    refine run_succ_next.2 ⟨_, hstep, (ih e (step_inv hstep) hm (by simp [hr]) rfl).trans ?_⟩
    have hpred : s.remaining - 1 = ((e :: ds).map dataByte).length := by simp [hr]
    rw [hpred]
    rfl

/-- An arming byte and the data bytes that it arms. -/
theorem run_message {b : Byte} {ds : List Septet} (hs : s.Inv) (h : armsWait s.ctx b = true)
    (hb : armingByte b = true) (hlen : armedLength s.mbLen b = ds.length)
    (hq : s.requests = driverLoop (b :: ds.map dataByte) ++ rest) :
    run (1 + ds.length) s = .next (State.afterWait { s with armed := b } (ds.map dataByte) rest) := by
  have hstep := step_arm hs h hb hq
  obtain ⟨-, hpos⟩ := (armsWait_iff s b).1 h
  obtain ⟨d, ds, rfl⟩ := List.exists_cons_of_length_pos (hlen ▸ hpos)
  rw [Nat.add_comm]
  exact run_succ_next.2 ⟨_, hstep, run_wait d ds (step_inv hstep) rfl hlen rfl⟩

end

/-- Settles O19: the message's bytes fill the buffer downward, and what was changed on the way is Idle's own again. -/
theorem multiByteDataArrivesReversed : Obligations.MultiByteDataArrivesReversed := by
  intro s b ds rest hs hidle hstart hreset hpos (hlen : armedLength s.mbLen b = ds.length) hq
  have harms : armsWait s.ctx b = true :=
    (armsWait_iff s b).2 ⟨(commandPosition_iff s b).2 (.inl hidle), hlen.symm ▸ hpos⟩
  have hrun := run_message hs harms ((armingByte_iff b).2 ⟨hstart, hreset⟩) hlen hq
  obtain ⟨-, hno, -, hbuf⟩ := hs
  obtain ⟨hrem, harmed⟩ := hno (by simp [hidle])
  have hbytes : ds.length = (ds.map dataByte).length := by rw [List.length_map]
  have hcap : (ds.map dataByte).length ≤ Config.capacity := hbytes ▸ hlen ▸ armedLength_le s.mbLen b
  refine ⟨_, hrun, ?_, ?_⟩
  · simp only [State.afterWait, hlen.trans hbytes, Memory.slice_storeDown hbuf hcap, hidle, hrem, harmed]
  · rw [hbytes]
    exact ⟨fun _ => Memory.getElem?_storeDown hbuf hcap, fun _ => Memory.read_storeDown_above⟩

end Sys2Proof.Machine
end

section
/-! SUPPORT. The decoder by its cases: each row of Table 30-D takes the byte the encoder gives it, wherever its
context holds (O8); and some bytes of the encoding tables (O10). -/

namespace Sys2Proof.Machine

section
variable {c : DecodeCtx} {b : Byte} {i : Instr}

theorem commandPosition_iff_mode :
    commandPosition c b = true ↔ c.mode = .idle ∨ (c.mode = .awaitMB ∧ isData b = false) := by
  simp [commandPosition]

/-! ### In a frame -/

theorem decodeByte_of_inFrame (h : inFrame c = true) : decodeByte c b = decodeInFrame c b := by
  have hm : c.mode = .inSysex := of_decide_eq_true h
  simp only [decodeByte, hm]

theorem decodeInFrame_payload (hb : framePayloadByte b = true) :
    decodeInFrame c b = if c.count < Config.capacity then .ok (.sxData b) else .ok (.sxDataOvf b) := by
  obtain ⟨hend, hreset⟩ := (framePayloadByte_iff b).1 hb
  exact (if_neg hreset).trans (if_neg hend)

/-- Row 2 of Table 30-D. -/
theorem decodeByte_sxEnd (h : frameNotEmpty c = true) : decodeByte c Config.endSysexByte = .ok .sxEnd := by
  obtain ⟨hf, hn⟩ := Bool.and_eq_true_iff.1 h
  have hpos : 1 ≤ c.count := of_decide_eq_true hn
  exact (decodeByte_of_inFrame hf).trans (if_neg (Nat.ne_of_gt hpos))

/-- Row 3 of Table 30-D. -/
theorem decodeByte_sxEndEmpty (h : frameEmpty c = true) :
    decodeByte c Config.endSysexByte = .ok .sxEndEmpty := by
  obtain ⟨hf, hn⟩ := Bool.and_eq_true_iff.1 h
  exact (decodeByte_of_inFrame hf).trans (if_pos (of_decide_eq_true hn))

/-- Row 4 of Table 30-D. -/
theorem decodeByte_sxData (h : frameHasRoom c = true) (hb : framePayloadByte b = true) :
    decodeByte c b = .ok (.sxData b) := by
  obtain ⟨hf, hn⟩ := Bool.and_eq_true_iff.1 h
  rw [decodeByte_of_inFrame hf, decodeInFrame_payload hb, if_pos (of_decide_eq_true hn)]

/-- Row 5 of Table 30-D. -/
theorem decodeByte_sxDataOvf (h : frameFull c = true) (hb : framePayloadByte b = true) :
    decodeByte c b = .ok (.sxDataOvf b) := by
  obtain ⟨hf, hn⟩ := Bool.and_eq_true_iff.1 h
  have hfull : c.count = Config.capacity := of_decide_eq_true hn
  rw [decodeByte_of_inFrame hf, decodeInFrame_payload hb, if_neg hfull.not_lt]

/-! ### In a multi-byte wait -/

/-- Row 6 of Table 30-D. -/
theorem decodeByte_mbData (h : awaitsMore c = true) (d : Septet) : decodeByte c (dataByte d) = .ok (.mbData d) := by
  obtain ⟨hm, hr⟩ := Bool.and_eq_true_iff.1 h
  rw [decodeByte_dataByte (of_decide_eq_true hm), if_pos (of_decide_eq_true hr)]

/-- Row 7 of Table 30-D. -/
theorem decodeByte_mbDataLast (h : awaitsLast c = true) (d : Septet) :
    decodeByte c (dataByte d) = .ok (.mbDataLast d) := by
  obtain ⟨hm, hr⟩ := Bool.and_eq_true_iff.1 h
  have hlast : c.remaining = 1 := of_decide_eq_true hr
  rw [decodeByte_dataByte (of_decide_eq_true hm), if_neg hlast.not_gt, if_pos hlast]

/-! ### In command position -/

/-- The row of a channel command's byte is named by its high nibble (R61). -/
theorem ignoredByte_channelByte (hi ch : Nibble) (h : hi ≠ 0xF#4) :
    ignoredByte (channelByte hi ch) = channelCommand hi ch := by
  revert hi ch; decide

/-- The row of a system byte is named by its selector (R62). -/
theorem ignoredByte_systemByte (sel : Nibble) : ignoredByte (systemByte sel) = ignoredSystemByte sel := by
  revert sel; decide

/-- The two recognised bytes are not among the ignored ones (R68). -/
theorem armingByte_of_ignoredByte (h : ignoredByte b = some i) : armingByte b = true := by
  rw [armingByte_iff]
  constructor
  · rintro rfl; exact nomatch h
  · rintro rfl; exact nomatch h

/-- A command-position byte that is not recognised and arms nothing is ignored (R68). -/
theorem decodeCommandPosition_of_armedLength_zero (hb : armingByte b = true) (h : armedLength c.mbLen b = 0)
    (hi : ignoredByte b = some i) : decodeCommandPosition c b = .ok i := by
  obtain ⟨hstart, hreset⟩ := (armingByte_iff b).1 hb
  rw [decodeCommandPosition, if_neg (mt (command_startSysex b).1 hstart),
    if_neg (mt (command_systemReset b).1 hreset), if_neg h.not_gt, hi]

/-- Rows 11 and 12 of Table 30-D. -/
theorem decodeByte_ignored (h : ignoredHere c b = true) (hi : ignoredByte b = some i) : decodeByte c b = .ok i := by
  obtain ⟨hp, hlen⟩ := Bool.and_eq_true_iff.1 h
  rw [decodeByte_of_commandPosition hp]
  exact decodeCommandPosition_of_armedLength_zero (armingByte_of_ignoredByte hi) (of_decide_eq_true hlen) hi

/-! ### All rows -/

/-- Row by row; what the host asks for without a byte is its own row. -/
theorem decode_encode (hw : i.WellFormed = true) (hc : rowContext c i = true) : decode c (encode i) = .ok i := by
  cases i with
  | sxReset => exact decodeByte_of_inFrame hc
  | sxEnd => exact decodeByte_sxEnd hc
  | sxEndEmpty => exact decodeByte_sxEndEmpty hc
  | sxData b => exact decodeByte_sxData hc hw
  | sxDataOvf b => exact decodeByte_sxDataOvf hc hw
  | mbData d => exact decodeByte_mbData hc d
  | mbDataLast d => exact decodeByte_mbDataLast hc d
  | startSysex => exact decodeByte_of_commandPosition hc
  | systemReset => exact decodeByte_of_commandPosition hc
  | arm b => exact decodeByte_arm hc hw
  | cmd00 ch | cmd10 ch | cmd20 ch | cmd30 ch | cmd40 ch | cmd50 ch | cmd60 ch | cmd70 ch | cmd80 ch
  | cmd90 ch | cmdA0 ch | cmdB0 ch | cmdC0 ch | cmdD0 ch | cmdE0 ch =>
    exact decodeByte_ignored hc (ignoredByte_channelByte _ ch (by decide))
  | sysF1 | sysF2 | sysF3 | sysF4 | sysF5 | sysF6 | sysF7 | sysF8 | sysF9 | sysFA | sysFB | sysFC | sysFD
  | sysFE => exact decodeByte_ignored hc (ignoredByte_systemByte _)
  | sendSysex cmd vals => exact if_pos hw
  | sendSysexBad cmd vals => exact if_neg (by simpa [Instr.WellFormed] using hw)
  | reset | attach | detach | onSystemReset | onSysex | classify | isData | enc7 | dec7 | decodePayload
  | doReset => rfl

end

/-- Settles O8: row by row; the 29 ignored rows share one argument. -/
theorem decodeInvertsEncode : Obligations.DecodeInvertsEncode :=
  fun _ _ => decode_encode

/-- Settles O10: each byte and context is evaluated. -/
theorem writtenBytesDecode : Obligations.WrittenBytesDecode :=
  ⟨rfl, rfl, rfl, rfl, rfl, rfl, rfl, rfl, rfl, rfl, rfl, rfl, rfl⟩

end Sys2Proof.Machine
end

section
/-! SUPPORT. The decoder written from the opcode table (R73). Its search is a chain of tests in the order of the rows;
in each mode the rows of the other modes drop out, and what is left is the priority order of R64 (O9). -/

namespace Sys2Proof.Machine

/-- What the first row that applies, among some rows of the table, builds from the byte. -/
def firstRow (rows : List TableRow) (c : DecodeCtx) (b : Byte) : Option Instr :=
  (rows.find? (·.applies c b)).map (·.build b)

theorem tableDecode_eq_firstRow (c : DecodeCtx) (b : Byte) : tableDecode c b = firstRow wireTable c b := rfl

section
variable {c : DecodeCtx} {b : Byte}

theorem firstRow_nil : firstRow [] c b = none := rfl

theorem firstRow_cons (r : TableRow) (rows : List TableRow) :
    firstRow (r :: rows) c b = if r.applies c b then some (r.build b) else firstRow rows c b := by
  unfold firstRow
  rw [List.find?_cons]
  cases r.applies c b <;> rfl

theorem firstRow_append (rows rows' : List TableRow) :
    firstRow (rows ++ rows') c b = (firstRow rows c b).or (firstRow rows' c b) := by
  simp only [firstRow, List.find?_append, Option.map_or]

/-! ### The tests on the byte -/

/-- A full mask compares the whole byte. -/
theorem and_fullMask (b : Byte) : b &&& 0xFF#8 = b := BitVec.and_allOnes

theorem and_dataMask (b : Byte) : b &&& 0x80#8 = 0x00#8 ↔ isData b = true := by
  revert b; decide

/-- The mask of a channel command selects the bytes of that command (R61, R80). -/
theorem command_of_channelMask (b : Byte) (h : b &&& 0xF0#8 ≠ 0xF0#8) : (classify b).command = b &&& 0xF0#8 := by
  revert b; decide

/-- A byte that no channel command takes is its own command (R62, R80). -/
theorem command_of_system (b : Byte) (h : b &&& 0xF0#8 = 0xF0#8) : (classify b).command = b := by
  revert b; decide

/-! ### The rows of the ignored bytes -/

/-- By the patterns alone, the 29 rows of priorities 11 and 12 are the ignored bytes of R68. -/
theorem patternRow_eq_ignoredByte (b : Byte) :
    ((channelRows ++ systemRows).find? fun r => (b &&& r.mask) == r.pattern).map (·.build b) = ignoredByte b := by
  revert b; decide

/-- Where the byte's command arms nothing, a channel command's row asks for its pattern only. -/
theorem applies_channelRow (hm : c.mode = .idle ∨ c.mode = .awaitMB) (hlen : armedLength c.mbLen b = 0) {p : Byte}
    (hp : p ≠ 0xF0#8) (build : Nibble → Instr) :
    (channelRow p build).applies c b = ((b &&& (channelRow p build).mask) == (channelRow p build).pattern) := by
  have hcond (h : b &&& 0xF0#8 = p) : mbLenOf c.mbLen p = 0 := by
    rwa [armedLength, command_of_channelMask b (h ▸ hp), h] at hlen
  by_cases h : b &&& 0xF0#8 = p
  · simp [TableRow.applies, channelRow, hm, h, hcond h]
  · simp [TableRow.applies, channelRow, h]

/-- Where the byte's command arms nothing, a system byte's row asks for its pattern only. -/
theorem applies_systemRow (hm : c.mode = .idle ∨ c.mode = .awaitMB) (hlen : armedLength c.mbLen b = 0) {p : Byte}
    (hp : p &&& 0xF0#8 = 0xF0#8) (i : Instr) :
    (systemRow p i).applies c b = ((b &&& (systemRow p i).mask) == (systemRow p i).pattern) := by
  have hcond (h : b = p) : mbLenOf c.mbLen p = 0 := by
    rwa [armedLength, h, command_of_system p hp] at hlen
  by_cases h : b = p
  · simp [TableRow.applies, systemRow, hm, h, hcond h]
  · simp [TableRow.applies, systemRow, and_fullMask, h]

theorem firstRow_ignored (hm : c.mode = .idle ∨ c.mode = .awaitMB) (hlen : armedLength c.mbLen b = 0) :
    firstRow (channelRows ++ systemRows) c b = ignoredByte b := by
  have happlies : ∀ r ∈ channelRows ++ systemRows, r.applies c b = ((b &&& r.mask) == r.pattern) := by
    simp [channelRows, systemRows, applies_channelRow hm hlen, applies_systemRow hm hlen]
  rw [firstRow, List.find?_congr happlies, patternRow_eq_ignoredByte]

/-! ### The other rows, as chains of tests -/

theorem firstRow_frameAndWait_of_inSysex (hm : c.mode = .inSysex) :
    firstRow frameAndWaitRows c b =
      if b = 0xFF#8 then some .sxReset
      else if 1 ≤ c.count ∧ b = 0xF7#8 then some .sxEnd
      else if c.count = 0 ∧ b = 0xF7#8 then some .sxEndEmpty
      else if c.count < 32 then some (.sxData b)
      else if c.count = 32 then some (.sxDataOvf b) else none := by
  simp [frameAndWaitRows, firstRow_cons, firstRow_nil, TableRow.applies, hm, and_fullMask]

theorem firstRow_frameAndWait_of_awaitMB (hm : c.mode = .awaitMB) :
    firstRow frameAndWaitRows c b =
      if 1 < c.remaining ∧ isData b = true then some (.mbData (dataField b))
      else if c.remaining = 1 ∧ isData b = true then some (.mbDataLast (dataField b)) else none := by
  simp [frameAndWaitRows, firstRow_cons, firstRow_nil, TableRow.applies, hm, and_dataMask]

theorem firstRow_frameAndWait_of_commandPosition (hp : commandPosition c b = true) :
    firstRow frameAndWaitRows c b = none := by
  rcases commandPosition_iff_mode.1 hp with hm | ⟨hm, hd⟩
  · simp [frameAndWaitRows, firstRow_cons, firstRow_nil, TableRow.applies, hm]
  · simp [firstRow_frameAndWait_of_awaitMB hm, hd]

theorem firstRow_recognised (hm : c.mode = .idle ∨ c.mode = .awaitMB) :
    firstRow recognisedRows c b =
      if b = 0xF0#8 then some .startSysex
      else if b = 0xFF#8 then some .systemReset
      else if 0 < mbLenOf c.mbLen (classify b).command then some (.arm b) else none := by
  simp [recognisedRows, firstRow_cons, firstRow_nil, TableRow.applies, hm, and_fullMask]

/-! ### The parts of the table together -/

theorem tableDecode_of_frameAndWait {i : Instr} (h : firstRow frameAndWaitRows c b = some i) :
    tableDecode c b = some i := by
  rw [tableDecode_eq_firstRow, wireTable, List.append_assoc, List.append_assoc, firstRow_append, h, Option.some_or]

/-- In command position the rows 8 to 12 are searched. -/
theorem tableDecode_of_commandPosition (hp : commandPosition c b = true) :
    tableDecode c b = (firstRow recognisedRows c b).or (firstRow (channelRows ++ systemRows) c b) := by
  rw [tableDecode_eq_firstRow, wireTable, List.append_assoc, List.append_assoc, firstRow_append,
    firstRow_frameAndWait_of_commandPosition hp, Option.none_or, firstRow_append]

/-! ### The agreement -/

/-- The byte has a row, and both decoders give it. -/
def DecodersAgree (c : DecodeCtx) (b : Byte) : Prop := ∃ i, decodeByte c b = .ok i ∧ tableDecode c b = some i

/-- Rows 1 to 5: the table's conditions on `count` are those of the priority order up to a full buffer. -/
theorem decodersAgree_of_inSysex (hm : c.mode = .inSysex) (hc : c.count ≤ 32) : DecodersAgree c b := by
  have hf : inFrame c = true := decide_eq_true hm
  have htable := firstRow_frameAndWait_of_inSysex (b := b) hm
  by_cases hreset : b = 0xFF#8
  · subst hreset
    exact ⟨.sxReset, decodeByte_of_inFrame hf, tableDecode_of_frameAndWait htable⟩
  by_cases hend : b = 0xF7#8
  · subst hend
    rcases Nat.eq_zero_or_pos c.count with h0 | (hpos : 1 ≤ c.count)
    · exact ⟨.sxEndEmpty, decodeByte_sxEndEmpty (by simp [frameEmpty, hf, h0]),
        tableDecode_of_frameAndWait (htable.trans (by simp [h0]))⟩
    · exact ⟨.sxEnd, decodeByte_sxEnd (by simp [frameNotEmpty, hf, hpos]),
        tableDecode_of_frameAndWait (htable.trans (by simp [Nat.one_le_iff_ne_zero.1 hpos]))⟩
  have hb : framePayloadByte b = true := (framePayloadByte_iff b).2 ⟨hend, hreset⟩
  rcases Nat.lt_or_eq_of_le hc with hlt | hfull
  · exact ⟨.sxData b, decodeByte_sxData (by simp [frameHasRoom, hf, hlt, Config.capacity]) hb,
      tableDecode_of_frameAndWait (htable.trans (by simp [hreset, hend, hlt]))⟩
  · exact ⟨.sxDataOvf b, decodeByte_sxDataOvf (by simp [frameFull, hf, hfull, Config.capacity]) hb,
      tableDecode_of_frameAndWait (htable.trans (by simp [hreset, hend, hfull]))⟩

/-- Rows 6 and 7: a wait that awaits a byte takes every data byte. -/
theorem decodersAgree_of_awaitData (hm : c.mode = .awaitMB) (hr : 1 ≤ c.remaining) (hd : isData b = true) :
    DecodersAgree c b := by
  have htable := firstRow_frameAndWait_of_awaitMB (b := b) hm
  have hbyte : dataByte (dataField b) = b := dataByte_dataField b hd
  rcases Nat.lt_or_eq_of_le hr with hmore | hlast
  · refine ⟨.mbData (dataField b), ?_, tableDecode_of_frameAndWait (htable.trans (if_pos ⟨hmore, hd⟩))⟩
    have hdec := decodeByte_mbData (c := c) (by simp [awaitsMore, hm, hmore]) (dataField b)
    rwa [hbyte] at hdec
  · refine ⟨.mbDataLast (dataField b), ?_, tableDecode_of_frameAndWait (htable.trans (by simp [← hlast, hd]))⟩
    have hdec := decodeByte_mbDataLast (c := c) (by simp [awaitsLast, hm, ← hlast]) (dataField b)
    rwa [hbyte] at hdec

/-- Rows 8 to 12: the recognised bytes, then the arming ones, then the ignored ones. -/
theorem decodersAgree_of_commandPosition (hp : commandPosition c b = true) : DecodersAgree c b := by
  have hm : c.mode = .idle ∨ c.mode = .awaitMB :=
    (commandPosition_iff_mode.1 hp).imp_right And.left
  have htable := tableDecode_of_commandPosition hp
  rw [firstRow_recognised hm] at htable
  by_cases hstart : b = 0xF0#8
  · subst hstart
    exact ⟨.startSysex, decodeByte_of_commandPosition hp, htable⟩
  by_cases hreset : b = 0xFF#8
  · subst hreset
    exact ⟨.systemReset, decodeByte_of_commandPosition hp, htable⟩
  rcases Nat.eq_zero_or_pos (mbLenOf c.mbLen (classify b).command) with hlen | hlen
  · obtain ⟨i, hi⟩ := Option.isSome_iff_exists.1 (ignoredByte_isSome b hstart hreset)
    rw [firstRow_ignored hm hlen, hi] at htable
    exact ⟨i, decodeByte_ignored (by simp [ignoredHere, armedLength, hp, hlen]) hi,
      htable.trans (by simp [hstart, hreset, hlen])⟩
  · have hb : armingByte b = true := (armingByte_iff b).2 ⟨hstart, hreset⟩
    exact ⟨.arm b, decodeByte_arm (by simp [armsWait, armedLength, hp, hlen]) hb,
      htable.trans (by simp [hstart, hreset, hlen])⟩

end

/-- Settles O9: a byte is in a frame, a data byte of a wait, or in command position. -/
theorem tableDecoderAgrees : Obligations.TableDecoderAgrees := by
  intro c b hr hc
  cases hm : c.mode with
  | inSysex => exact decodersAgree_of_inSysex hm (hc hm)
  | idle => exact decodersAgree_of_commandPosition (commandPosition_iff_mode.2 (.inl hm))
  | awaitMB =>
    cases hd : isData b with
    | true => exact decodersAgree_of_awaitData hm (hr hm) hd
    | false => exact decodersAgree_of_commandPosition (commandPosition_iff_mode.2 (.inr ⟨hm, hd⟩))

end Sys2Proof.Machine
end

section
/-! SUPPORT. Every row but `DECODE_PAYLOAD` is guarded by one test, the one that says that its operand is in range and
its context holds; so within the invariants, where nothing faults, it completes exactly there (O53). -/

namespace Sys2Proof.Machine

/-- The operand lies in the row's range, and the context selects the row (Table 30-D, R124, R125). -/
def rowSelected (c : DecodeCtx) (i : Instr) : Bool := i.WellFormed && rowContext c i

theorem rowSelected_iff {c : DecodeCtx} {i : Instr} :
    rowSelected c i = true ↔ i.WellFormed = true ∧ rowContext c i = true := Bool.and_eq_true_iff

section
variable {s : State} {r : Refusal}

theorem store_ne_refused {i : Nat} {b : Byte} {k : State → Result} (hk : ∀ t, k t ≠ .refused r) :
    s.store i b k ≠ .refused r := by
  unfold State.store
  split
  · exact hk _
  · exact nofun

theorem load_ne_refused {lo hi : Nat} {k : List Byte → Result} (hk : ∀ data, k data ≠ .refused r) :
    s.load lo hi k ≠ .refused r := by
  unfold State.load
  split
  · exact hk _
  · exact nofun

theorem dispatchSysex_ne_refused : s.dispatchSysex ≠ .refused r := by
  unfold State.dispatchSysex
  split
  · exact load_ne_refused fun _ => nofun
  · exact nofun

end

/-- A row that is not `DECODE_PAYLOAD` is performed, without a refusal, where it is selected, and refused as not
selected elsewhere (entry 7). -/
theorem exec_eq_select (s : State) {i : Instr} (hi : ∀ data, i ≠ .decodePayload data) :
    ∃ o : Result, exec i s = select (rowSelected s.ctx i) o ∧ ∀ r, o ≠ .refused r := by
  cases i with
  | decodePayload data => exact absurd rfl (hi data)
  | sxEnd => exact ⟨_, rfl, fun _ => dispatchSysex_ne_refused⟩
  | sxData b => exact ⟨_, congrArg (select · _) (Bool.and_comm ..), fun _ => store_ne_refused fun _ => nofun⟩
  | sxDataOvf b => exact ⟨_, congrArg (select · _) (Bool.and_comm ..), nofun⟩
  | mbData d => exact ⟨_, rfl, fun _ => store_ne_refused fun _ => nofun⟩
  | mbDataLast d => exact ⟨_, rfl, fun _ => store_ne_refused fun _ => load_ne_refused fun _ => nofun⟩
  | arm b => exact ⟨_, congrArg (select · _) (Bool.and_comm ..), nofun⟩
  | sendSysex cmd vals => exact ⟨_, congrArg (select · _) (Bool.and_true _).symm, nofun⟩
  | sendSysexBad cmd vals => exact ⟨_, congrArg (select · _) (Bool.and_true _).symm, nofun⟩
  | _ => exact ⟨_, rfl, nofun⟩

section
variable {s : State} {i : Instr}

theorem exec_refused_of_not_selected (hi : ∀ data, i ≠ .decodePayload data)
    (h : ¬ rowSelected s.ctx i = true) : exec i s = .refused .rowNotSelected := by
  obtain ⟨o, ho, -⟩ := exec_eq_select s hi
  exact ho.trans (if_neg h)

/-- Within the invariants nothing faults, so a selected row completes. -/
theorem exec_next_iff_of_ne_decodePayload (hs : s.Inv) (hi : ∀ data, i ≠ .decodePayload data) :
    (∃ t, exec i s = .next t) ↔ rowSelected s.ctx i = true := by
  obtain ⟨o, ho, hne⟩ := exec_eq_select s hi
  constructor
  · rintro ⟨t, ht⟩
    exact (select_next.1 (ho ▸ ht)).1
  · intro h
    have hexec : exec i s = o := ho.trans (if_pos h)
    cases o with
    | next t => exact ⟨t, hexec⟩
    | fault f => exact absurd hexec (exec_ne_fault hs)
    | refused r => exact absurd rfl (hne r)

/-- A payload is decoded where it is a sequence of pairs, and refused elsewhere (R128, R129; entry 9). -/
theorem execDecodePayload_cases (s : State) (data : List Byte) :
    (rowSelected s.ctx (.decodePayload data) = true ∧ ∃ t, exec (.decodePayload data) s = .next t) ∨
      (rowSelected s.ctx (.decodePayload data) = false ∧
        exec (.decodePayload data) s = .refused .payloadNotPairs) := by
  cases h : decodePayload data <;>
    simp [rowSelected, Instr.WellFormed, rowContext, exec, execDecodePayload, h]

end

/-- Settles O53: `DECODE_PAYLOAD` by its own two cases, every other row by its one guard. -/
theorem instructionCompletesExactlyWhenSelected : Obligations.InstructionCompletesExactlyWhenSelected := by
  intro i s hs
  rw [← rowSelected_iff]
  by_cases hi : ∃ data, i = .decodePayload data
  · obtain ⟨data, rfl⟩ := hi
    rcases execDecodePayload_cases s data with ⟨hsel, hnext⟩ | ⟨hsel, hrefused⟩
    · exact ⟨iff_of_true hnext hsel, absurd hsel⟩
    · exact ⟨by simp [hsel, hrefused], fun _ => .inr ⟨data, rfl, hrefused⟩⟩
  · rw [not_exists] at hi
    exact ⟨exec_next_iff_of_ne_decodePayload hs hi, fun h => .inl (exec_refused_of_not_selected hi h)⟩

end Sys2Proof.Machine
end

section
/-! SUPPORT. The classifier by its two ranges of bytes, the data test by its number and by its bit, and the two rows
that put them on the result port (O34, O35). -/

namespace Sys2Proof.Machine

/-- A byte below `0xF0` is a command in its high nibble and a channel in its low one (R80). -/
theorem classify_of_lt {b : Byte} (h : b.toNat < 0xF0) :
    classify b = { command := b &&& 0xF0#8, channel := some ((b &&& 0x0F#8).setWidth 4) } :=
  if_pos (BitVec.lt_def.2 h)

/-- A byte from `0xF0` on is its own command and has no channel (R80). -/
theorem classify_of_le {b : Byte} (h : 0xF0 ≤ b.toNat) : classify b = { command := b, channel := none } :=
  if_neg fun hlt => Nat.not_lt.2 h (BitVec.lt_def.1 hlt)

/-- Four bits hold the low nibble, so the channel is the masked byte's own number. -/
theorem toNat_channel (b : Byte) : ((b &&& 0x0F#8).setWidth 4).toNat = (b &&& 0x0F#8).toNat := by
  have hle : (b &&& 0x0F#8).toNat ≤ 0x0F := by
    rw [BitVec.toNat_and]
    exact Nat.and_le_right
  rw [BitVec.toNat_setWidth]
  exact Nat.mod_eq_of_lt (Nat.lt_succ_of_le hle)

theorem isData_eq_decide (b : Byte) : isData b = decide (b.toNat < 128) := by
  rw [Bool.eq_iff_iff, isData_iff, decide_eq_true_iff]

/-- Bit 7 is a byte's most significant one, so it is set from `2 ^ 7` on. -/
theorem getLsbD_seven_eq_decide (b : Byte) : b.getLsbD 7 = decide (128 ≤ b.toNat) :=
  (BitVec.msb_eq_getLsbD_last b).symm.trans (BitVec.msb_eq_decide b)

theorem exec_classify (b : Byte) (s : State) :
    exec (.classify b) s = .next (s.answer (.classified (classify b).command (classify b).channel)) := rfl

theorem exec_isData (b : Byte) (s : State) : exec (.isData b) s = .next (s.answer (.dataTest (isData b))) := rfl

/-- Settles O34: the answer is the classification, whose two ranges meet at `0xF0`. -/
theorem classifySplitsByte : Obligations.ClassifySplitsByte := by
  intro b s
  refine ⟨(classify b).command, (classify b).channel, exec_classify b s, fun hlt => ?_, fun hle => ?_⟩
  · rw [classify_of_lt hlt]
    exact ⟨rfl, _, rfl, toNat_channel b⟩
  · rw [classify_of_le hle]
    exact ⟨rfl, rfl⟩

/-- Settles O35: the answer is the data test, and bit 7 is the opposite comparison. -/
theorem isDataTestsBitSeven : Obligations.IsDataTestsBitSeven := by
  intro b s
  constructor
  · rw [← isData_eq_decide]
    exact exec_isData b s
  · rw [getLsbD_seven_eq_decide, ← decide_not, decide_eq_decide]
    exact Nat.not_le.symm

end Sys2Proof.Machine
end

section
/-! SUPPORT. The decoder read backwards: the row it gives for a request is encoded as that request, and is selected.
With the agreement of the two decoders (O9) and the round trip (O8) this is R107: exactly one row takes a byte (O6);
and a step stops on a malformed payload alone (O54). -/

namespace Sys2Proof.Machine

/-- The row is selected in the context, and its byte is `b` (Table 30-D). -/
def IsRowOf (c : DecodeCtx) (b : Byte) (i : Instr) : Prop := encode i = .op (.rx b) ∧ rowSelected c i = true

section
variable {c : DecodeCtx} {b : Byte} {i : Instr}

/-! ### The ignored rows -/

theorem ignoredRowByte_of_ignoredByte (h : ignoredByte b = some i) : ignoredRowByte i = some b := by
  have hall : ∀ b, (ignoredByte b).all (ignoredRowByte · == some b) = true := by decide
  simpa [h] using hall b

theorem ignoredByte_of_ignoredRowByte (h : ignoredRowByte i = some b) : ignoredByte b = some i := by
  cases i with
  | cmd00 ch | cmd10 ch | cmd20 ch | cmd30 ch | cmd40 ch | cmd50 ch | cmd60 ch | cmd70 ch | cmd80 ch
  | cmd90 ch | cmdA0 ch | cmdB0 ch | cmdC0 ch | cmdD0 ch | cmdE0 ch =>
    cases h
    exact ignoredByte_channelByte _ ch (by decide)
  | sysF1 | sysF2 | sysF3 | sysF4 | sysF5 | sysF6 | sysF7 | sysF8 | sysF9 | sysFA | sysFB | sysFC | sysFD
  | sysFE =>
    cases h
    exact ignoredByte_systemByte _
  | _ => cases h

theorem encode_of_ignoredRowByte (h : ignoredRowByte i = some b) : encode i = .op (.rx b) := by
  cases i <;> cases h <;> rfl

theorem rowSelected_of_ignoredRowByte (h : ignoredRowByte i = some b) : rowSelected c i = ignoredHere c b := by
  cases i <;> cases h <;> rfl

/-! ### The rows of a byte -/

/-- A frame's decoding tests `count` for room only, so row 5 is selected where `count` is within I3. -/
theorem isRowOf_of_decodeInFrame (hf : inFrame c = true)
    (hc : ∀ x, i = .sxDataOvf x → c.count ≤ Config.capacity) (h : decodeInFrame c b = .ok i) : IsRowOf c b i := by
  unfold decodeInFrame at h
  split_ifs at h with hreset hend hzero hroom
  · cases h
    exact ⟨hreset ▸ rfl, hf⟩
  · cases h
    exact ⟨hend ▸ rfl, by simp [rowSelected_iff, Instr.WellFormed, rowContext, frameEmpty, hf, hzero]⟩
  · cases h
    exact ⟨hend ▸ rfl, by
      simp [rowSelected_iff, Instr.WellFormed, rowContext, frameNotEmpty, hf, Nat.one_le_iff_ne_zero.2 hzero]⟩
  · cases h
    have hb : framePayloadByte b = true := (framePayloadByte_iff b).2 ⟨hend, hreset⟩
    exact ⟨rfl, rowSelected_iff.2 ⟨hb, by simp [rowContext, frameHasRoom, hf, hroom]⟩⟩
  · cases h
    have hb : framePayloadByte b = true := (framePayloadByte_iff b).2 ⟨hend, hreset⟩
    have hfull : c.count = Config.capacity := Nat.le_antisymm (hc b rfl) (Nat.le_of_not_lt hroom)
    exact ⟨rfl, rowSelected_iff.2 ⟨hb, by simp [rowContext, frameFull, hf, hfull]⟩⟩

theorem isRowOf_of_decodeAwaitData (hm : c.mode = .awaitMB) (hd : isData b = true)
    (h : decodeAwaitData c b = .ok i) : IsRowOf c b i := by
  have hbyte : dataByte (b.setWidth 7) = b := dataByte_dataField b hd
  unfold decodeAwaitData at h
  split_ifs at h with hmore hlast
  · cases h
    exact ⟨congrArg _ (congrArg _ hbyte), by
      simp [rowSelected_iff, Instr.WellFormed, rowContext, awaitsMore, hm, hmore]⟩
  · cases h
    exact ⟨congrArg _ (congrArg _ hbyte), by
      simp [rowSelected_iff, Instr.WellFormed, rowContext, awaitsLast, hm, hlast]⟩

theorem isRowOf_of_decodeCommandPosition (hp : commandPosition c b = true)
    (h : decodeCommandPosition c b = .ok i) : IsRowOf c b i := by
  unfold decodeCommandPosition at h
  split_ifs at h with hstart hreset harm
  · cases h
    obtain rfl := (command_startSysex b).1 hstart
    exact ⟨rfl, hp⟩
  · cases h
    obtain rfl := (command_systemReset b).1 hreset
    exact ⟨rfl, hp⟩
  · cases h
    have hb : armingByte b = true :=
      (armingByte_iff b).2 ⟨mt (command_startSysex b).2 hstart, mt (command_systemReset b).2 hreset⟩
    exact ⟨rfl, rowSelected_iff.2 ⟨hb, by simp [rowContext, armsWait, hp, harm]⟩⟩
  · split at h
    · rename_i hi
      cases h
      have hrow := ignoredRowByte_of_ignoredByte hi
      refine ⟨encode_of_ignoredRowByte hrow, (rowSelected_of_ignoredRowByte hrow).trans ?_⟩
      simp [ignoredHere, hp, Nat.eq_zero_of_not_pos harm]
    · cases h

/-- A byte is in a frame, a data byte of a wait, or in command position. -/
theorem isRowOf_of_decodeByte (hc : ∀ x, i = .sxDataOvf x → c.count ≤ Config.capacity)
    (h : decodeByte c b = .ok i) : IsRowOf c b i := by
  unfold decodeByte at h
  split at h
  next hm => exact isRowOf_of_decodeInFrame (decide_eq_true hm) hc h
  next hm =>
    split at h
    next hd => exact isRowOf_of_decodeAwaitData hm hd h
    next hd =>
      exact isRowOf_of_decodeCommandPosition (commandPosition_iff_mode.2 (.inr ⟨hm, by simpa using hd⟩)) h
  next hm => exact isRowOf_of_decodeCommandPosition (commandPosition_iff_mode.2 (.inl hm)) h

/-! ### The row of a request -/

/-- The row of a request is encoded as that request; and it is selected, unless it is a payload to decode. -/
theorem encode_and_selected_of_decode {r : Request} (hc : ∀ x, i = .sxDataOvf x → c.count ≤ Config.capacity)
    (h : decode c r = .ok i) : encode i = r ∧ ((∀ data, i ≠ .decodePayload data) → rowSelected c i = true) := by
  cases r with
  | op o =>
    cases o with
    | rx b =>
      obtain ⟨henc, hsel⟩ := isRowOf_of_decodeByte hc h
      exact ⟨henc, fun _ => hsel⟩
    | sendSysex cmd vals =>
      simp only [decode] at h
      split at h <;> rename_i hcmd <;> cases h <;>
        exact ⟨rfl, fun _ => by simp [rowSelected_iff, Instr.WellFormed, rowContext, hcmd]⟩
    | _ => cases h; exact ⟨rfl, fun _ => rfl⟩
  | decodePayload data => cases h; exact ⟨rfl, fun hi => absurd rfl (hi data)⟩
  | _ => cases h; exact ⟨rfl, fun _ => rfl⟩

/-- A byte has at most one row: the one it decodes to (O8). -/
theorem IsRowOf.decode_eq (h : IsRowOf c b i) : decode c (.op (.rx b)) = .ok i := by
  obtain ⟨henc, hsel⟩ := h
  obtain ⟨hw, hctx⟩ := rowSelected_iff.1 hsel
  exact henc ▸ decode_encode hw hctx

theorem IsRowOf.unique {j : Instr} (hi : IsRowOf c b i) (hj : IsRowOf c b j) : j = i :=
  Except.ok.inj (hj.decode_eq.symm.trans hi.decode_eq)

theorem IsRowOf.context (h : IsRowOf c b i) : rowContext c i = true := (rowSelected_iff.1 h.2).2

theorem IsRowOf.ne_decodePayload (h : IsRowOf c b i) (data : List Byte) : i ≠ .decodePayload data := by
  rintro rfl
  exact nomatch h.1

end

section
variable {s : State} {rest : List Request}

/-- I3 (R27). -/
theorem count_le_of_inv (hs : s.Inv) : s.count ≤ Config.capacity := by
  obtain ⟨-, -, hcount, -⟩ := hs
  exact hcount

/-- Within the invariants a byte has a row (O9). -/
theorem exists_isRowOf (hs : s.Inv) (b : Byte) : ∃ i, IsRowOf s.ctx b i := by
  have hcount : s.count ≤ Config.capacity := count_le_of_inv hs
  obtain ⟨hawait, -⟩ := hs
  obtain ⟨i, hdec, -⟩ := tableDecoderAgrees s.ctx b (fun hm => (hawait hm).1) fun _ => hcount
  exact ⟨i, isRowOf_of_decodeByte (fun _ _ => hcount) hdec⟩

theorem exists_decode (hs : s.Inv) (r : Request) : ∃ i, decode s.ctx r = .ok i := by
  cases r with
  | op o =>
    cases o with
    | rx b =>
      obtain ⟨i, hi⟩ := exists_isRowOf hs b
      exact ⟨i, hi.decode_eq⟩
    | sendSysex cmd vals =>
      simp only [decode]
      split <;> exact ⟨_, rfl⟩
    | _ => exact ⟨_, rfl⟩
  | _ => exact ⟨_, rfl⟩

/-- Within the invariants a received byte's row is performed and completes. -/
theorem step_rx {b : Byte} (hs : s.Inv) (hq : s.requests = .op (.rx b) :: rest) :
    ∃ i t, IsRowOf s.ctx b i ∧ step s = .next t ∧ exec i { s with requests := rest } = .next t := by
  obtain ⟨i, hi⟩ := exists_isRowOf hs b
  obtain ⟨t, ht⟩ :=
    (exec_next_iff_of_ne_decodePayload (s := { s with requests := rest }) hs hi.ne_decodePayload).2 hi.2
  exact ⟨i, t, hi, (step_of_decode_ok hs hq hi.decode_eq).trans ht, ht⟩

/-! ### The core configuration -/

/-- Where no command arms, no instruction enters a wait (R7, R107). -/
theorem Effect.mode_ne_awaitMB {t : State} {i : Instr} (h : Effect s i t) (hcore : Claims.IsCore s)
    (hm : s.mode ≠ .awaitMB) : t.mode ≠ .awaitMB := by
  cases h with
  | armed b hp => exact absurd (hcore _) ((armsWait_iff s b).1 hp).2.ne'
  | slot _ cat => cases cat <;> exact hm
  | ignored | sent | refusedCommand | answered | stored | awaited => exact hm
  | _ => exact nofun

theorem step_core {t : State} (hcore : Claims.IsCore s) (hm : s.mode ≠ .awaitMB) (h : step s = .next t) :
    Claims.IsCore t ∧ t.mode ≠ .awaitMB := by
  obtain ⟨-, ⟨-, rfl⟩ | ⟨r, rest, i, -, -, hexec⟩⟩ := step_next.1 h
  · exact ⟨hcore, hm⟩
  · have heffect := exec_effect hexec
    exact ⟨fun c => heffect.mbLen_eq ▸ hcore c, heffect.mode_ne_awaitMB hcore hm⟩

/-- Where no command arms and no wait is open, no multi-byte row is selected (R107). -/
theorem decode_core {b : Byte} {i : Instr} (hcore : Claims.IsCore s) (hm : s.mode ≠ .awaitMB)
    (h : decode s.ctx (.op (.rx b)) = .ok i) :
    (∀ x, i ≠ .arm x) ∧ (∀ d, i ≠ .mbData d) ∧ ∀ d, i ≠ .mbDataLast d := by
  refine ⟨?_, ?_, ?_⟩
  · rintro x rfl
    have hrow : IsRowOf s.ctx b (.arm x) := isRowOf_of_decodeByte (fun _ => nofun) h
    exact ((armsWait_iff s x).1 hrow.context).2.ne' (hcore _)
  · rintro d rfl
    have hrow : IsRowOf s.ctx b (.mbData d) := isRowOf_of_decodeByte (fun _ => nofun) h
    exact hm ((awaitsMore_iff s).1 hrow.context).1
  · rintro d rfl
    have hrow : IsRowOf s.ctx b (.mbDataLast d) := isRowOf_of_decodeByte (fun _ => nofun) h
    exact hm ((awaitsLast_iff s).1 hrow.context).1

end

/-- Settles O6: a row exists by the agreement of the decoders, is unique by the round trip, and completes because it
is selected. -/
theorem exactlyOneRowTakesEveryByte : Obligations.ExactlyOneRowTakesEveryByte := by
  refine ⟨fun s b rest hs hq => ?_, fun _ _ => step_core, fun _ _ _ => decode_core⟩
  obtain ⟨i, t, hi, hstep, -⟩ := step_rx hs hq
  refine ⟨⟨i, ⟨hi.1, rowSelected_iff.1 hi.2⟩, fun j hj => ?_⟩, t, hstep, step_inv hstep⟩
  exact hi.unique ⟨hj.1, rowSelected_iff.2 hj.2⟩

/-- Settles O54: the request decodes; its row is selected and completes, or it is a payload to decode. -/
theorem stepStopsOnlyOnMalformedPayload : Obligations.StepStopsOnlyOnMalformedPayload := by
  intro s hs
  cases hq : s.requests with
  | nil => exact .inl ⟨s, step_of_no_request hs hq⟩
  | cons r rest =>
    obtain ⟨i, hdec⟩ := exists_decode hs r
    obtain ⟨henc, hsel⟩ := encode_and_selected_of_decode (fun _ _ => count_le_of_inv hs) hdec
    rw [step_of_decode_ok hs hq hdec]
    by_cases hi : ∃ data, i = .decodePayload data
    · obtain ⟨data, rfl⟩ := hi
      rcases execDecodePayload_cases { s with requests := rest } data with ⟨-, hnext⟩ | ⟨hno, hrefused⟩
      · exact .inl hnext
      · have hnone : decodePayload data = none := by
          simpa [rowSelected, Instr.WellFormed, rowContext] using hno
        exact .inr ⟨data, rest, by rw [← henc]; rfl, hnone, hrefused⟩
    · rw [not_exists] at hi
      exact .inl ((exec_next_iff_of_ne_decodePayload (s := { s with requests := rest }) hs hi).2 (hsel hi))

end Sys2Proof.Machine
end

section
/-! SUPPORT. What a slice reads, which bytes are in command position, and with these each row of the parser where it
is selected: in a frame (O11 to O15), in a multi-byte wait (O17, O18), in command position (O20 to O24). -/

namespace Sys2Proof.Machine

theorem Memory.getElem?_slice (m : Memory) {lo hi k : Nat} (hk : k < hi - lo) :
    (Memory.slice m lo hi)[k]? = some (Memory.read m (lo + k)) := by
  simp [Memory.slice, hk]

theorem toNat_dataByte (d : Septet) : (dataByte d).toNat = d.toNat :=
  BitVec.toNat_setWidth_of_le (by decide)

theorem doReset_eq_afterReset (s : State) : s.doReset = Claims.afterReset s := rfl

section
variable {s : State} {b : Byte}

/-- Outside a frame a byte of 128 or above is in command position, wait or no wait (R64). -/
theorem commandPosition_of_not_data (hm : s.mode = .idle ∨ s.mode = .awaitMB) (hb : isData b = false) :
    commandPosition s.ctx b = true :=
  (commandPosition_iff s b).2 (hm.imp_right fun hwait => ⟨hwait, hb⟩)

theorem commandPosition_iff_inCommandPosition :
    commandPosition s.ctx b = true ↔ Claims.InCommandPosition s b := by
  rw [commandPosition_iff, isData_false_iff]
  rfl

theorem isData_systemByte (sel : Nibble) : isData (systemByte sel) = false := by
  revert sel; decide

/-! ### The rows where they are selected -/

theorem exec_sxEnd_silent (hm : s.mode = .inSysex) (hc : 1 ≤ s.count) (hs : s.slotSysex = none) :
    exec .sxEnd s = .next { s with mode := .idle } :=
  select_next.2 ⟨(frameNotEmpty_iff s).2 ⟨hm, hc⟩, dispatchSysex_next.2 (.inl ⟨hs, rfl⟩)⟩

theorem exec_sxEnd_delivered {h : HandlerId} (hm : s.mode = .inSysex) (hc : 1 ≤ s.count)
    (hc' : s.count ≤ Config.capacity) (hs : s.slotSysex = some h) :
    exec .sxEnd s = .next (State.emit { s with mode := .idle }
      (.sysexCallback h (s.cell 0) (s.count - 1) (s.buf.slice 1 s.count))) :=
  select_next.2 ⟨(frameNotEmpty_iff s).2 ⟨hm, hc⟩, dispatchSysex_next.2 (.inr ⟨h, hs, hc', rfl⟩)⟩

theorem exec_sxData (hm : s.mode = .inSysex) (hc : s.count < Config.capacity) (hb : framePayloadByte b = true) :
    exec (.sxData b) s = .next { s with buf := s.buf.write s.count b, count := s.count + 1 } :=
  select_next.2 ⟨Bool.and_eq_true_iff.2 ⟨(frameHasRoom_iff s).2 ⟨hm, hc⟩, hb⟩, store_next.2 ⟨hc, rfl⟩⟩

theorem ignoreByte_of_ignoredHere (h : ignoredHere s.ctx b = true) : ignoreByte s b = .next s :=
  ignoreByte_next.2 ⟨h, rfl⟩

end

/-! ### In a frame -/

/-- Settles O11: row 1 is selected. -/
theorem resetByteInFrameResets : Obligations.ResetByteInFrameResets := fun s hm =>
  doReset_eq_afterReset s ▸ select_next.2 ⟨(inFrame_iff s).2 hm, rfl⟩

/-- Settles O12: the dispatch with the slot empty and with it occupied; the data is the slice from cell 1 on. -/
theorem endOfFrameDeliversFrame : Obligations.EndOfFrameDeliversFrame := by
  refine ⟨fun _ => exec_sxEnd_silent, fun s h hm hc hcap hs => ?_⟩
  refine ⟨s.buf.slice 1 s.count, Memory.length_slice .., fun k hk => ?_, exec_sxEnd_delivered hm hc hcap hs⟩
  rw [Memory.getElem?_slice s.buf hk, Nat.add_comm]
  rfl

/-- Settles O13: row 3 is selected. -/
theorem emptyFrameIsReported : Obligations.EmptyFrameIsReported := fun s hm hc =>
  select_next.2 ⟨(frameEmpty_iff s).2 ⟨hm, hc⟩, rfl⟩

/-- Settles O14: row 4 is selected, and the cell it writes exists. -/
theorem frameByteIsStoredAtCount : Obligations.FrameByteIsStoredAtCount := by
  intro s b hwf hm hc hend hreset
  have hb : framePayloadByte b = true := (framePayloadByte_iff b).2 ⟨hend, hreset⟩
  exact ⟨_, exec_sxData hm hc hb, rfl, Memory.wf_write hc hwf, Memory.read_write_same hwf,
    fun _ => Memory.read_write_other⟩

/-- Settles O15: row 5 is selected; the reset runs on the state that has reported the overflow. -/
theorem fullFrameOverflowsThenResets : Obligations.FullFrameOverflowsThenResets := by
  intro s b hm hc hend hreset
  have hsel : (frameFull s.ctx && framePayloadByte b) = true :=
    Bool.and_eq_true_iff.2 ⟨(frameFull_iff s).2 ⟨hm, hc⟩, (framePayloadByte_iff b).2 ⟨hend, hreset⟩⟩
  exact select_next.2 ⟨hsel, congrArg _ (doReset_eq_afterReset (s.emit .overflow))⟩

/-! ### In a multi-byte wait -/

/-- Settles O17: row 6 is selected, and the cell below `remaining` exists. -/
theorem waitByteIsStoredDownward : Obligations.WaitByteIsStoredDownward := by
  intro s d hwf hm hr hcap
  have hi : s.remaining - 1 < Config.capacity := (Nat.sub_one_lt_of_lt hr).trans_le hcap
  refine ⟨_, exec_mbData d hm hr hcap, rfl, Memory.wf_write hi hwf, ?_, fun _ => Memory.read_write_other⟩
  simp only [State.cell, Memory.read_write_same hwf, toNat_dataByte]

/-- Settles O18: row 7 is selected; the data is the slice of the cells below `MB_LEN` of the arming command. -/
theorem lastWaitByteCompletes : Obligations.LastWaitByteCompletes := by
  intro s d hwf hm hr
  refine ⟨_, _, exec_mbDataLast d hm hr, rfl, Memory.wf_write (by decide) hwf, ?_,
    fun _ => Memory.read_write_other, Memory.length_slice .., fun k hk => ?_⟩
  · simp only [State.cell, State.emit_buf, Memory.read_write_same hwf, toNat_dataByte]
  · rw [Memory.length_slice] at hk
    exact Memory.getElem?_slice_zero _ hk

/-! ### In command position -/

/-- Settles O20: row 8 is selected. -/
theorem startSysexOpensFrame : Obligations.StartSysexOpensFrame := fun _ hm =>
  select_next.2 ⟨commandPosition_of_not_data hm rfl, rfl⟩

/-- Settles O21: row 9 is selected. -/
theorem systemResetByteResets : Obligations.SystemResetByteResets := fun s hm =>
  doReset_eq_afterReset s ▸ select_next.2 ⟨commandPosition_of_not_data hm rfl, rfl⟩

/-- Settles O22: row 10 is selected, from `Idle` and from a wait. -/
theorem armingByteStartsWait : Obligations.ArmingByteStartsWait := fun s b hp hstart hreset hlen =>
  exec_arm ((armsWait_iff s b).2 ⟨commandPosition_iff_inCommandPosition.2 hp, hlen⟩)
    ((armingByte_iff b).2 ⟨hstart, hreset⟩)

theorem channelByte_zero_or (hi ch : Nibble) : channelByte hi 0#4 ||| ch.setWidth 8 = channelByte hi ch := by
  revert hi ch; decide

/-- A row that ignores the bytes of one channel command ignores each of them where that command arms nothing. -/
theorem ignoresChannelCommand (hi : Nibble) {row : Nibble → Instr} (hhi : hi ≠ 0xF#4)
    (hrow : ∀ ch s, exec (row ch) s = ignoreByte s (channelByte hi ch)) :
    Claims.IgnoresChannelCommand row (channelByte hi 0#4) := by
  intro ch s hp hlen
  have hbyte := channelByte_zero_or hi ch
  have harmed : armedLength s.mbLen (channelByte hi ch) = 0 := by
    rwa [armedLength, classify_channelByte hi ch hhi]
  rw [hrow]
  exact ignoreByte_of_ignoredHere
    ((ignoredHere_iff ..).2 ⟨commandPosition_iff_inCommandPosition.2 (hbyte ▸ hp), harmed⟩)

/-- A row that ignores one system byte ignores it where the byte arms nothing. -/
theorem ignoresSystemByte (sel : Nibble) {row : Instr} (hrow : ∀ s, exec row s = ignoreByte s (systemByte sel)) :
    Claims.IgnoresSystemByte row (systemByte sel) := by
  intro s hm hlen
  have harmed : armedLength s.mbLen (systemByte sel) = 0 := by
    rwa [armedLength, classify_systemByte]
  rw [hrow]
  exact ignoreByte_of_ignoredHere
    ((ignoredHere_iff ..).2 ⟨commandPosition_of_not_data hm (isData_systemByte sel), harmed⟩)

/-- Settles O23: the fifteen rows share one argument. -/
theorem channelCommandsAreIgnored : Obligations.ChannelCommandsAreIgnored :=
  ⟨ignoresChannelCommand 0x0 (by decide) fun _ _ => rfl, ignoresChannelCommand 0x1 (by decide) fun _ _ => rfl,
    ignoresChannelCommand 0x2 (by decide) fun _ _ => rfl, ignoresChannelCommand 0x3 (by decide) fun _ _ => rfl,
    ignoresChannelCommand 0x4 (by decide) fun _ _ => rfl, ignoresChannelCommand 0x5 (by decide) fun _ _ => rfl,
    ignoresChannelCommand 0x6 (by decide) fun _ _ => rfl, ignoresChannelCommand 0x7 (by decide) fun _ _ => rfl,
    ignoresChannelCommand 0x8 (by decide) fun _ _ => rfl, ignoresChannelCommand 0x9 (by decide) fun _ _ => rfl,
    ignoresChannelCommand 0xA (by decide) fun _ _ => rfl, ignoresChannelCommand 0xB (by decide) fun _ _ => rfl,
    ignoresChannelCommand 0xC (by decide) fun _ _ => rfl, ignoresChannelCommand 0xD (by decide) fun _ _ => rfl,
    ignoresChannelCommand 0xE (by decide) fun _ _ => rfl⟩

/-- Settles O24: the fourteen rows share one argument. -/
theorem systemBytesAreIgnored : Obligations.SystemBytesAreIgnored :=
  ⟨ignoresSystemByte 0x1 fun _ => rfl, ignoresSystemByte 0x2 fun _ => rfl, ignoresSystemByte 0x3 fun _ => rfl,
    ignoresSystemByte 0x4 fun _ => rfl, ignoresSystemByte 0x5 fun _ => rfl, ignoresSystemByte 0x6 fun _ => rfl,
    ignoresSystemByte 0x7 fun _ => rfl, ignoresSystemByte 0x8 fun _ => rfl, ignoresSystemByte 0x9 fun _ => rfl,
    ignoresSystemByte 0xA fun _ => rfl, ignoresSystemByte 0xB fun _ => rfl, ignoresSystemByte 0xC fun _ => rfl,
    ignoresSystemByte 0xD fun _ => rfl, ignoresSystemByte 0xE fun _ => rfl⟩

end Sys2Proof.Machine
end

section
/-! SUPPORT. What a received byte can do, said once: of the effects, those whose row a byte has. The receive function
of R91 gives the same state for each of them (O7), and what each does to the buffer and to the event stream is R90
(O42). An open frame, by the effects of all rows (O44). -/

namespace Sys2Proof.Machine

/-- The requests that reach the parser's registers: a byte, and the two that run `do_reset`. -/
def reachesParser : Request → Bool
  | .op (.rx _) | .op .reset | .doReset => true
  | _ => false

/-- The effects a received byte can have. Each case carries what the receive function tests on its way there. -/
inductive Received (s : State) : Byte → State → Prop where
  | reset : Received s 0xFF#8 s.doReset
  | overflow (b : Byte) (hm : s.mode = .inSysex) (hc : s.count = Config.capacity) (hb : framePayloadByte b = true) :
      Received s b (s.emit .overflow).doReset
  /-- The end of a frame. -/
  | endSilent (hm : s.mode = .inSysex) (hc : 1 ≤ s.count) (hs : s.slotSysex = none) :
      Received s 0xF7#8 { s with mode := .idle }
  | endDelivered (h : HandlerId) (hm : s.mode = .inSysex) (hc : 1 ≤ s.count) (hs : s.slotSysex = some h) :
      Received s 0xF7#8
        (State.emit { s with mode := .idle }
          (.sysexCallback h (s.cell 0) (s.count - 1) (s.buf.slice 1 s.count)))
  | endEmpty (hm : s.mode = .inSysex) (hc : s.count = 0) :
      Received s 0xF7#8 (State.emit { s with mode := .idle } .emptyFrame)
  /-- Stored bytes. -/
  | stored (b : Byte) (hm : s.mode = .inSysex) (hc : s.count < Config.capacity) (hb : framePayloadByte b = true) :
      Received s b { s with buf := s.buf.write s.count b, count := s.count + 1 }
  | awaited (d : Septet) (hm : s.mode = .awaitMB) (hr : 1 < s.remaining) :
      Received s (dataByte d)
        { s with buf := s.buf.write (s.remaining - 1) (dataByte d), remaining := s.remaining - 1 }
  | completed (d : Septet) (hm : s.mode = .awaitMB) (hr : s.remaining = 1) :
      Received s (dataByte d)
        (State.emit
          { s with
            buf := s.buf.write 0 (dataByte d), remaining := 0, mode := .idle, armed := 0x00#8 }
          (.multiByteComplete s.armed
            (Memory.slice (s.buf.write 0 (dataByte d)) 0 (armedLength s.mbLen s.armed))))
  /-- Command position. -/
  | opened (hp : commandPosition s.ctx Config.startSysexByte = true) :
      Received s 0xF0#8 { s with mode := .inSysex, count := 0, remaining := 0, armed := 0x00#8 }
  | armed (b : Byte) (hp : armsWait s.ctx b = true) (hb : armingByte b = true) :
      Received s b { s with mode := .awaitMB, remaining := armedLength s.mbLen b, armed := b }
  | ignored (b : Byte) (hp : ignoredHere s.ctx b = true) (hb : armingByte b = true) : Received s b s

section
variable {s t : State} {b : Byte} {i : Instr}

/-! ### From the effects of all rows to those of a byte -/

theorem reachesParser_of_writesSlot {cat : Category} (h : writesSlot i = some cat) :
    reachesParser (encode i) = false := by
  cases i with
  | attach | detach | onSystemReset | onSysex => rfl
  | _ => cases h

theorem reachesParser_of_functionValue {r : FuncResult} (h : functionValue i = some r) :
    reachesParser (encode i) = false := by
  cases i with
  | classify | isData | enc7 | dec7 | decodePayload => rfl
  | _ => cases h

/-- The effect of a row that a byte has. -/
theorem Effect.received (h : Effect s i t) (henc : encode i = .op (.rx b)) : Received s b t := by
  have hreaches : reachesParser (encode i) = true := henc ▸ rfl
  cases h with
  | ignored _ b' hi hp =>
    cases (encode_of_ignoredRowByte hi).symm.trans henc
    exact .ignored b hp (armingByte_of_ignoredByte (ignoredByte_of_ignoredRowByte hi))
  | slot _ _ _ hw => exact absurd hreaches (by simp [reachesParser_of_writesSlot hw])
  | answered _ _ hv => exact absurd hreaches (by simp [reachesParser_of_functionValue hv])
  | sxReset | systemReset => cases henc; exact .reset
  | overflow _ hm hc hb => cases henc; exact .overflow b hm hc hb
  | endSilent hm hc hs => cases henc; exact .endSilent hm hc hs
  | endDelivered g hm hc _ hs => cases henc; exact .endDelivered g hm hc hs
  | endEmpty hm hc => cases henc; exact .endEmpty hm hc
  | stored _ hm hc hb => cases henc; exact .stored b hm hc hb
  | awaited d hm hr => cases henc; exact .awaited d hm hr
  | completed d hm hr => cases henc; exact .completed d hm hr
  | opened hp => cases henc; exact .opened hp
  | armed _ hp hb => cases henc; exact .armed b hp hb
  | reset | doReset | sent | refusedCommand => cases henc

/-- Within the invariants a received byte is taken off the requests and has one of these effects. -/
theorem step_received {rest : List Request} (hs : s.Inv) (hq : s.requests = .op (.rx b) :: rest) :
    ∃ t, step s = .next t ∧ Received { s with requests := rest } b t := by
  obtain ⟨i, t, ⟨henc, -⟩, hstep, hexec⟩ := step_rx hs hq
  exact ⟨t, hstep, (exec_effect hexec).received henc⟩

/-! ### The receive function in one piece (R91) -/

theorem lt_128_iff_isData (b : Byte) : b < 128#8 ↔ isData b = true := (isData_iff b).symm

/-- In command position the receive function passes over the sysex test and the multi-byte test. -/
theorem processByte_of_commandPosition (hp : commandPosition s.ctx b = true) :
    s.processByte b =
      if b = 0xF0#8 then { s with mode := .inSysex, count := 0, remaining := 0, armed := 0x00#8 }
      else if b = 0xFF#8 then s.doReset
      else if 0 < armedLength s.mbLen b then
        { s with mode := .awaitMB, remaining := armedLength s.mbLen b, armed := b }
      else s := by
  have hframe : s.mode ≠ .inSysex := by
    intro hm
    simp [hm] at hp
  have hwait : ¬ (s.mode = .awaitMB ∧ b < 128#8) := by
    rintro ⟨hm, hb⟩
    simp [hm, (lt_128_iff_isData b).1 hb] at hp
  have hstart : (classify b).command = 0xF0#8 ↔ b = 0xF0#8 := command_startSysex b
  have hreset : (classify b).command = 0xFF#8 ↔ b = 0xFF#8 := command_systemReset b
  simp only [State.processByte, if_neg hframe, if_neg hwait, hstart, hreset]
  rfl

/-- The byte `0xFF` runs the full reset in every mode (R91). -/
theorem processByte_systemReset (s : State) : s.processByte 0xFF#8 = s.doReset := by
  by_cases hm : s.mode = .inSysex
  · simp [State.processByte, hm]
  · have houtside : s.mode = .idle ∨ s.mode = .awaitMB := by
      cases h : s.mode <;> simp_all
    exact processByte_of_commandPosition (commandPosition_of_not_data houtside rfl)

/-- Each effect is what the receive function gives. -/
theorem Received.processByte_eq (h : Received s b t) : s.processByte b = t := by
  cases h with
  | reset => exact processByte_systemReset s
  | overflow _ hm hc hb =>
    obtain ⟨hend, hreset⟩ := (framePayloadByte_iff b).1 hb
    have hfull : s.count = 32 := hc
    simp [State.processByte, hm, hend, hreset, hfull]
  | endSilent hm hc hs => simp [State.processByte, hm, Nat.one_le_iff_ne_zero.1 hc, hs]
  | endDelivered _ hm hc hs => simp [State.processByte, hm, Nat.one_le_iff_ne_zero.1 hc, hs]
  | endEmpty hm hc => simp [State.processByte, hm, hc]
  | stored _ hm hc hb =>
    obtain ⟨hend, hreset⟩ := (framePayloadByte_iff b).1 hb
    have hroom : s.count ≠ 32 := hc.ne
    simp [State.processByte, hm, hend, hreset, hroom]
  | awaited d hm hr =>
    have hmore : s.remaining - 1 ≠ 0 := by omega
    simp [State.processByte, hm, lt_128_iff_isData, hmore]
  | completed d hm hr => simp [State.processByte, hm, lt_128_iff_isData, hr, armedLength]
  | opened hp => exact processByte_of_commandPosition hp
  | armed _ hp hb =>
    obtain ⟨hpos, hlen⟩ := (armsWait_iff s b).1 hp
    obtain ⟨hstart, hreset⟩ := (armingByte_iff b).1 hb
    rw [processByte_of_commandPosition hpos, if_neg hstart, if_neg hreset, if_pos hlen]
  | ignored _ hp hb =>
    obtain ⟨hpos, hlen⟩ := (ignoredHere_iff s b).1 hp
    obtain ⟨hstart, hreset⟩ := (armingByte_iff b).1 hb
    rw [processByte_of_commandPosition hpos, if_neg hstart, if_neg hreset, if_neg hlen.not_gt]

/-! ### The buffer, the events and the rest (R90) -/

/-- No rule for a byte writes the buffer (R90). -/
def KeepsBuffer (s : State) (b : Byte) : Prop :=
  ¬ Claims.StoresInFrame s b ∧ ¬ Claims.StoresInWait s b ∧ ¬ Claims.ResetsOn s b

theorem keepsBuffer_endSysex (hm : s.mode = .inSysex) : KeepsBuffer s 0xF7#8 := by
  simp [KeepsBuffer, Claims.StoresInFrame, Claims.StoresInWait, Claims.ResetsOn, hm]

theorem keepsBuffer_of_commandPosition (hp : commandPosition s.ctx b = true) (hb : b ≠ 0xFF#8) :
    KeepsBuffer s b := by
  obtain hm | ⟨hm, hle⟩ := commandPosition_iff_inCommandPosition.1 hp
  · simp [KeepsBuffer, Claims.StoresInFrame, Claims.StoresInWait, Claims.ResetsOn, hm, hb]
  · simp [KeepsBuffer, Claims.StoresInFrame, Claims.StoresInWait, Claims.ResetsOn, hm, hb, hle]

/-- What a received byte does to the buffer: a write at `count`, a write at `remaining - 1`, a clear, or nothing. -/
theorem Received.buf_cases (h : Received s b t) :
    (Claims.StoresInFrame s b ∧ t.buf = s.buf.write s.count b) ∨
      (Claims.StoresInWait s b ∧ t.buf = s.buf.write (s.remaining - 1) b) ∨
      (Claims.ResetsOn s b ∧ t.buf = Memory.zeroed) ∨
      (KeepsBuffer s b ∧ t.buf = s.buf) := by
  have hdata (d : Septet) : (dataByte d).toNat < 128 := (isData_iff _).1 (isData_dataByte d)
  cases h with
  | reset => exact .inr (.inr (.inl ⟨.inl rfl, rfl⟩))
  | overflow _ hm hc hb =>
    obtain ⟨hend, -⟩ := (framePayloadByte_iff b).1 hb
    exact .inr (.inr (.inl ⟨.inr ⟨hm, hc, hend⟩, rfl⟩))
  | stored _ hm hc hb => exact .inl ⟨⟨hm, hc, (framePayloadByte_iff b).1 hb⟩, rfl⟩
  | awaited d hm => exact .inr (.inl ⟨⟨hm, hdata d⟩, rfl⟩)
  | completed d hm hr => exact .inr (.inl ⟨⟨hm, hdata d⟩, by rw [hr]; rfl⟩)
  | endSilent hm | endDelivered _ hm | endEmpty hm => exact .inr (.inr (.inr ⟨keepsBuffer_endSysex hm, rfl⟩))
  | opened hp => exact .inr (.inr (.inr ⟨keepsBuffer_of_commandPosition hp (by decide), rfl⟩))
  | armed _ hp hb =>
    obtain ⟨hpos, -⟩ := (armsWait_iff s b).1 hp
    obtain ⟨-, hreset⟩ := (armingByte_iff b).1 hb
    exact .inr (.inr (.inr ⟨keepsBuffer_of_commandPosition hpos hreset, rfl⟩))
  | ignored _ hp hb =>
    obtain ⟨hpos, -⟩ := (ignoredHere_iff s b).1 hp
    obtain ⟨-, hreset⟩ := (armingByte_iff b).1 hb
    exact .inr (.inr (.inr ⟨keepsBuffer_of_commandPosition hpos hreset, rfl⟩))

theorem not_storesInWait_of_storesInFrame (h : Claims.StoresInFrame s b) : ¬ Claims.StoresInWait s b := by
  obtain ⟨hm, -⟩ := h
  simp [Claims.StoresInWait, hm]

theorem not_resetsOn_of_storesInFrame (h : Claims.StoresInFrame s b) : ¬ Claims.ResetsOn s b := by
  obtain ⟨-, hc, -, hreset⟩ := h
  simp [Claims.ResetsOn, hreset, hc.ne]

theorem not_resetsOn_of_storesInWait (h : Claims.StoresInWait s b) : ¬ Claims.ResetsOn s b := by
  obtain ⟨hm, hlt⟩ := h
  rintro (rfl | ⟨hm', -⟩)
  · exact absurd hlt (by decide)
  · exact absurd (hm.symm.trans hm') nofun

/-- At most one event, or the overflow and the callback of its reset; none of them is a transmission (R90, R168). -/
theorem Received.events (h : Received s b t) :
    ∃ es, t.out = s.out ++ es ∧ es.length ≤ 2 ∧ ∀ x, Event.txByte x ∉ es := by
  have hreset (slot : Option HandlerId) :
      (resetEvents slot).length ≤ 1 ∧ ∀ x, Event.txByte x ∉ resetEvents slot := by
    cases slot <;> simp
  obtain ⟨hlen, htx⟩ := hreset s.slotReset
  cases h with
  | reset => exact ⟨_, rfl, Nat.le_succ_of_le hlen, htx⟩
  | overflow =>
    exact ⟨_, List.append_assoc .., Nat.succ_le_succ hlen, fun x => by simp [htx x]⟩
  | endDelivered | endEmpty | completed => exact ⟨_, rfl, by simp, by simp⟩
  | endSilent | stored | awaited | opened | armed | ignored => exact ⟨[], by simp⟩

/-- The slots, the configuration, the result port and the requests are not a byte's to write (R90). -/
theorem Received.keeps (h : Received s b t) :
    t.slotReset = s.slotReset ∧ t.slotSysex = s.slotSysex ∧ t.mbLen = s.mbLen ∧ t.result = s.result ∧
      t.requests = s.requests := by
  cases h with
  | _ => exact ⟨rfl, rfl, rfl, rfl, rfl⟩

/-- A state whose buffer is a write to another's reads the byte at that cell, and elsewhere as the other. -/
theorem cell_of_buf_write {i : Nat} (hs : s.buf.wf = true) (h : t.buf = s.buf.write i b) :
    t.cell i = b ∧ ∀ j, j ≠ i → t.cell j = s.cell j := by
  simp only [State.cell, h]
  exact ⟨Memory.read_write_same hs, fun _ => Memory.read_write_other⟩

/-- The cells after a received byte, clause by clause as R90 lists them. -/
theorem Received.cells (h : Received s b t) (hs : s.buf.wf = true) :
    (Claims.StoresInFrame s b → t.cell s.count = b ∧ ∀ i, i ≠ s.count → t.cell i = s.cell i) ∧
      (Claims.StoresInWait s b →
        t.cell (s.remaining - 1) = b ∧ ∀ i, i ≠ s.remaining - 1 → t.cell i = s.cell i) ∧
      (Claims.ResetsOn s b → ∀ i, t.cell i = 0x00#8) ∧
      (¬ Claims.StoresInFrame s b → ¬ Claims.StoresInWait s b → ¬ Claims.ResetsOn s b →
        ∀ i, t.cell i = s.cell i) := by
  rcases h.buf_cases with ⟨hframe, hbuf⟩ | ⟨hwait, hbuf⟩ | ⟨hreset, hbuf⟩ | ⟨⟨hframe, hwait, hreset⟩, hbuf⟩
  · exact ⟨fun _ => cell_of_buf_write hs hbuf, fun hw => absurd hw (not_storesInWait_of_storesInFrame hframe),
      fun hr => absurd hr (not_resetsOn_of_storesInFrame hframe), absurd hframe⟩
  · exact ⟨fun hf => absurd hwait (not_storesInWait_of_storesInFrame hf), fun _ => cell_of_buf_write hs hbuf,
      fun hr => absurd hr (not_resetsOn_of_storesInWait hwait), fun _ => absurd hwait⟩
  · exact ⟨fun hf => absurd hreset (not_resetsOn_of_storesInFrame hf),
      fun hw => absurd hreset (not_resetsOn_of_storesInWait hw),
      fun _ i => congrArg (Memory.read · i) hbuf, fun _ _ => absurd hreset⟩
  · exact ⟨fun hf => absurd hf hframe, fun hw => absurd hw hwait, fun hr => absurd hr hreset,
      fun _ _ _ i => congrArg (Memory.read · i) hbuf⟩

/-! ### Leaving a frame (R108) -/

/-- In an open frame no byte is in command position (R64). -/
theorem not_commandPosition_of_inSysex (hm : s.mode = .inSysex) : ¬ commandPosition s.ctx b = true := by
  simp [hm]

/-- The requests that close an open frame (R108; entry 6). -/
def ClosesFrame (s : State) (r : Request) : Prop :=
  r = .op (.rx 0xF7#8) ∨ r = .op (.rx 0xFF#8) ∨ r = .op .reset ∨ r = .doReset ∨
    ((∃ b, r = .op (.rx b)) ∧ s.count = 32)

theorem ClosesFrame.reachesParser {r : Request} (h : ClosesFrame s r) : reachesParser r = true := by
  rcases h with rfl | rfl | rfl | rfl | ⟨⟨b, rfl⟩, -⟩ <;> rfl

/-- Of the effects an instruction has in a frame, the ends and the resets leave it. -/
theorem Effect.mode_ne_inSysex_iff (h : Effect s i t) (hm : s.mode = .inSysex) :
    t.mode ≠ .inSysex ↔ ClosesFrame s (encode i) := by
  have hstays (hmode : t.mode = s.mode) (hno : ¬ ClosesFrame s (encode i)) :
      t.mode ≠ .inSysex ↔ ClosesFrame s (encode i) := iff_of_false (fun hne => hne (hmode.trans hm)) hno
  cases h with
  | sxReset | reset | doReset => exact iff_of_true nofun (by simp [ClosesFrame, encode])
  | endSilent | endDelivered | endEmpty => exact iff_of_true nofun (.inl rfl)
  | overflow b _ hc => exact iff_of_true nofun (.inr (.inr (.inr (.inr ⟨⟨b, rfl⟩, hc⟩))))
  | stored b _ hc hb =>
    obtain ⟨hend, hreset⟩ := (framePayloadByte_iff b).1 hb
    have hroom : s.count ≠ 32 := hc.ne
    exact hstays rfl (by simp [ClosesFrame, encode, hend, hreset, hroom])
  | awaited _ hm' | completed _ hm' => exact absurd (hm.symm.trans hm') nofun
  | systemReset hp | opened hp => exact absurd hp (not_commandPosition_of_inSysex hm)
  | armed b hp => exact absurd ((armsWait_iff s b).1 hp).1 (not_commandPosition_of_inSysex hm)
  | ignored _ b _ hp => exact absurd ((ignoredHere_iff s b).1 hp).1 (not_commandPosition_of_inSysex hm)
  | slot _ cat _ hw =>
    refine hstays (by cases cat <;> rfl) fun hcloses => ?_
    exact absurd hcloses.reachesParser (by simp [reachesParser_of_writesSlot hw])
  | answered _ _ hv =>
    refine hstays rfl fun hcloses => ?_
    exact absurd hcloses.reachesParser (by simp [reachesParser_of_functionValue hv])
  | sent | refusedCommand => exact hstays rfl fun hcloses => nomatch hcloses.reachesParser

end

/-- Settles O7: each effect of a received byte is what the receive function gives. -/
theorem receivedByteRunsProcessByte : Obligations.ReceivedByteRunsProcessByte := by
  intro s b rest hs hq
  obtain ⟨t, hstep, hreceived⟩ := step_received hs hq
  rw [hstep, hreceived.processByte_eq]

/-- Settles O42: the events, the fields and the cells, each over the effects of a received byte. -/
theorem receivingNeverTransmits : Obligations.ReceivingNeverTransmits := by
  intro s b rest hs hq
  obtain ⟨t, hstep, hreceived⟩ := step_received hs hq
  obtain ⟨-, -, -, hbuf⟩ := hs
  obtain ⟨es, hout, hlen, htx⟩ := hreceived.events
  obtain ⟨hslotReset, hslotSysex, hmbLen, hresult, hrequests⟩ := hreceived.keeps
  exact ⟨t, es, hstep, hout, hlen, htx, hslotReset, hslotSysex, hmbLen, hresult, hrequests, hreceived.cells hbuf⟩

/-- Settles O44: the request is what its row is encoded as, and the row's effect leaves the frame or not. -/
theorem onlyThreeThingsCloseFrame : Obligations.OnlyThreeThingsCloseFrame := by
  intro s t r rest hm hq hstep
  obtain ⟨hs, ⟨hnil, -⟩ | ⟨r', rest', i, hq', hdec, hexec⟩⟩ := step_next.1 hstep
  · cases hq.symm.trans hnil
  · cases hq.symm.trans hq'
    obtain ⟨henc, -⟩ := encode_and_selected_of_decode (fun _ _ => count_le_of_inv hs) hdec
    exact henc ▸ (exec_effect hexec).mode_ne_inSysex_iff hm

end Sys2Proof.Machine
end

section
/-! SUPPORT. The pair codec by its numbers and by its seven-bit halves, a payload as the pairs it is laid out from, and
the rows of the codec and of the encoder (O32, O33, O36 to O40). -/

namespace Sys2Proof.Machine

/-! ### A pair -/

theorem and_lowMask (v : Word16) : (v &&& 0x7F#16).setWidth 8 = dataByte (v.setWidth 7) := by
  have hmask : (0x7F#16).toNat = 2 ^ 7 - 1 := rfl
  apply BitVec.eq_of_toNat_eq
  simp only [dataByte, BitVec.toNat_setWidth, BitVec.toNat_and, hmask, Nat.and_two_pow_sub_one_eq_mod]

/-- The seven-bit halves of a value, low one first (R120). -/
def halves (v : Word16) : Septet × Septet := (v.setWidth 7, (v >>> 7).setWidth 7)

/-- The bytes of a pair of seven-bit halves, low one first. -/
def pairBytes (p : Septet × Septet) : List Byte := [dataByte p.1, dataByte p.2]

theorem enc7_eq_halves (v : Word16) : enc7 v = (dataByte (halves v).1, dataByte (halves v).2) :=
  Prod.ext (and_lowMask v) (and_lowMask (v >>> 7))

theorem toNat_halves_fst (v : Word16) : (halves v).1.toNat = v.toNat % 128 := BitVec.toNat_setWidth ..

theorem toNat_halves_snd (v : Word16) : (halves v).2.toNat = v.toNat / 128 % 128 := by
  rw [halves, BitVec.toNat_setWidth, BitVec.toNat_ushiftRight, Nat.shiftRight_eq_div_pow]

theorem toNat_enc7_fst (v : Word16) : (enc7 v).1.toNat = v.toNat % 128 := by
  rw [enc7_eq_halves, toNat_dataByte, toNat_halves_fst]

theorem toNat_enc7_snd (v : Word16) : (enc7 v).2.toNat = v.toNat / 128 % 128 := by
  rw [enc7_eq_halves, toNat_dataByte, toNat_halves_snd]

/-- Joining the halves is concatenating their bits (R121). -/
theorem dec7_eq_append (lsb msb : Septet) : dec7 lsb msb = msb ++ lsb := by
  rw [BitVec.append_def, BitVec.shiftLeftZeroExtend_eq, BitVec.setWidth'_eq]
  rfl

theorem toNat_dec7 (lsb msb : Septet) : (dec7 lsb msb).toNat = lsb.toNat + 128 * msb.toNat := by
  rw [dec7_eq_append, BitVec.toNat_append, ← Nat.shiftLeft_add_eq_or_of_lt lsb.isLt, Nat.shiftLeft_eq]
  omega

/-- Joining the halves of a value gives its low 14 bits, whatever bits 15 and 14 are (R122, R123). -/
theorem dec7_halves (v : Word16) : dec7 (halves v).1 (halves v).2 = v.setWidth 14 := by
  apply BitVec.eq_of_toNat_eq
  rw [toNat_dec7, toNat_halves_fst, toNat_halves_snd, BitVec.toNat_setWidth]
  omega

theorem halves_dec7 (lsb msb : Septet) : halves ((dec7 lsb msb).setWidth 16) = (lsb, msb) := by
  have hl : lsb.toNat < 128 := lsb.isLt
  have hm : msb.toNat < 128 := msb.isLt
  have hv : ((dec7 lsb msb).setWidth 16).toNat = lsb.toNat + 128 * msb.toNat := by
    rw [BitVec.toNat_setWidth_of_le (by decide), toNat_dec7]
  refine Prod.ext (BitVec.eq_of_toNat_eq (?_ : _ = lsb.toNat)) (BitVec.eq_of_toNat_eq (?_ : _ = msb.toNat))
  · rw [toNat_halves_fst, hv]
    omega
  · rw [toNat_halves_snd, hv]
    omega

theorem setWidth_dataByte (d : Septet) : (dataByte d).setWidth 7 = d := dataField_dataByte d

theorem dec7_enc7 (v : Word16) : dec7 ((enc7 v).1.setWidth 7) ((enc7 v).2.setWidth 7) = v.setWidth 14 := by
  rw [enc7_eq_halves, setWidth_dataByte, setWidth_dataByte, dec7_halves]

/-! ### A payload -/

theorem decodePayload_cons_pair (p : Septet × Septet) (data : List Byte) :
    decodePayload (pairBytes p ++ data) = (decodePayload data).map (dec7 p.1 p.2 :: ·) := by
  simp [pairBytes, decodePayload, setWidth_dataByte]

/-- Pairs laid out as bytes decode to their values (R128). -/
theorem decodePayload_pairs (ps : List (Septet × Septet)) :
    decodePayload (ps.flatMap pairBytes) = some (ps.map fun p => dec7 p.1 p.2) := by
  induction ps with
  | nil => rfl
  | cons p ps ih => rw [List.flatMap_cons, decodePayload_cons_pair, ih]; rfl

/-- What decodes is of even length and has data bytes only (R129). -/
theorem length_and_isData_of_decodePayload {data : List Byte} {vs : List Value14} (h : decodePayload data = some vs) :
    data.length = 2 * vs.length ∧ ∀ b ∈ data, isData b = true := by
  induction data using decodePayload.induct generalizing vs with
  | case1 => cases h; exact ⟨rfl, List.forall_mem_nil _⟩
  | case2 => cases h
  | case3 lsb msb rest hdata ih =>
    rw [decodePayload, if_pos hdata] at h
    obtain ⟨vs, hrest, rfl⟩ := Option.map_eq_some_iff.1 h
    obtain ⟨hlen, hall⟩ := ih hrest
    obtain ⟨hlsb, hmsb⟩ := Bool.and_eq_true_iff.1 hdata
    refine ⟨by simp [hlen, Nat.mul_succ], ?_⟩
    exact List.forall_mem_cons.2 ⟨hlsb, List.forall_mem_cons.2 ⟨hmsb, hall⟩⟩
  | case4 lsb msb rest hdata =>
    rw [decodePayload, if_neg hdata] at h
    cases h

/-- An odd length or a byte of 128 or above leaves `decode_payload` undefined (R129). -/
theorem decodePayload_eq_none {data : List Byte} (h : data.length % 2 = 1 ∨ ∃ b ∈ data, 128 ≤ b.toNat) :
    decodePayload data = none := by
  rw [Option.eq_none_iff_forall_ne_some]
  intro vs hsome
  obtain ⟨hlen, hall⟩ := length_and_isData_of_decodePayload hsome
  rcases h with hodd | ⟨b, hmem, hhigh⟩
  · omega
  · exact absurd (hall b hmem) (by simp [(isData_false_iff b).2 hhigh])

/-- The encoder lays out the halves of the values. -/
theorem encodeValues_eq_flatMap (vals : List Word16) : encodeValues vals = (vals.map halves).flatMap pairBytes := by
  induction vals with
  | nil => rfl
  | cons v vals ih => rw [encodeValues, ih, enc7_eq_halves]; rfl

/-- Encoded values decode to their low 14 bits (R122, R123). -/
theorem decodePayload_encodeValues (vals : List Word16) :
    decodePayload (encodeValues vals) = some (vals.map (·.setWidth 14)) := by
  rw [encodeValues_eq_flatMap, decodePayload_pairs, List.map_map]
  exact congrArg some (List.map_congr_left fun v _ => dec7_halves v)

/-- The `i`-th pair of the encoded values holds the halves of the `i`-th value. -/
theorem getElem?_encodeValues {vals : List Word16} {i : Nat} {v : Word16} (h : vals[i]? = some v) :
    (encodeValues vals)[2 * i]? = some (enc7 v).1 ∧ (encodeValues vals)[2 * i + 1]? = some (enc7 v).2 := by
  induction vals generalizing i with
  | nil => cases h
  | cons w vals ih =>
    cases i with
    | zero => cases h; exact ⟨rfl, rfl⟩
    | succ i => exact ih h

/-- The encoder's bytes are the frame of R66. -/
theorem isFrameOf_frameBytes (cmd : Byte) (vals : List Word16) : Claims.IsFrameOf cmd vals (frameBytes cmd vals) := by
  have hlen := length_encodeValues vals
  refine ⟨length_frameBytes cmd vals, rfl, rfl, fun i v hv => ?_, ?_⟩
  · obtain ⟨hlsb, hmsb⟩ := getElem?_encodeValues hv
    obtain ⟨hi, -⟩ := List.getElem?_eq_some_iff.1 hv
    refine ⟨⟨(enc7 v).1, ?_, toNat_enc7_fst v⟩, (enc7 v).2, ?_, toNat_enc7_snd v⟩
    · rw [Nat.add_comm, ← hlsb]
      exact List.getElem?_append_left (by omega)
    · rw [show 3 + 2 * i = 2 * i + 1 + 2 by omega, ← hmsb]
      exact List.getElem?_append_left (by omega)
  · rw [Nat.add_comm, ← hlen]
    exact List.getElem?_concat_length

/-! ### The rows -/

section
variable {s : State} {cmd : Byte}

theorem exec_sendSysex (h : isData cmd = true) (vals : List Word16) :
    exec (.sendSysex cmd vals) s = .next (s.transmit (frameBytes cmd vals)) :=
  select_next.2 ⟨h, rfl⟩

theorem exec_sendSysexBad (h : isData cmd = false) (vals : List Word16) :
    exec (.sendSysexBad cmd vals) s = .next (s.emit (.txBadCommand cmd)) :=
  select_next.2 ⟨Bool.not_eq_true' _ ▸ h, rfl⟩

theorem exec_enc7 (v : Word16) : exec (.enc7 v) s = .next (s.answer (.pair (enc7 v).1 (enc7 v).2)) := rfl

theorem exec_dec7 (lsb msb : Septet) : exec (.dec7 lsb msb) s = .next (s.answer (.value (dec7 lsb msb))) := rfl

theorem exec_decodePayload_of_some {data : List Byte} {vs : List Value14} (h : decodePayload data = some vs) :
    exec (.decodePayload data) s = .next (s.answer (.values vs)) := by
  simp only [exec, execDecodePayload, h]

theorem exec_decodePayload_of_none {data : List Byte} (h : decodePayload data = none) :
    exec (.decodePayload data) s = .refused .payloadNotPairs := by
  simp only [exec, execDecodePayload, h]

end

/-- Settles O32: the list is the encoder's frame, which the row transmits. -/
theorem sendSysexWritesFrame : Obligations.SendSysexWritesFrame := fun cmd vals hcmd =>
  ⟨frameBytes cmd vals, isFrameOf_frameBytes cmd vals, fun _ => exec_sendSysex ((isData_iff cmd).2 hcmd) vals⟩

/-- Settles O33: the command is no data byte, so the row is selected. -/
theorem badCommandSendsNothing : Obligations.BadCommandSendsNothing := fun cmd vals _ hcmd =>
  exec_sendSysexBad ((isData_false_iff cmd).2 hcmd) vals

/-- Settles O36: the two halves by their numbers. -/
theorem enc7SplitsLowSevenFirst : Obligations.Enc7SplitsLowSevenFirst := by
  intro v s
  have hlsb := toNat_enc7_fst v
  have hmsb := toNat_enc7_snd v
  exact ⟨(enc7 v).1, (enc7 v).2, exec_enc7 v, hlsb, hmsb, by omega⟩

/-- Settles O37: the joined value by its number. -/
theorem dec7JoinsPair : Obligations.Dec7JoinsPair := fun lsb msb _ =>
  ⟨dec7 lsb msb, exec_dec7 lsb msb, toNat_dec7 lsb msb⟩

/-- Settles O38: the joined halves are the low 14 bits, and those are all of a value of at most 16383. -/
theorem pairCodecRoundTrips : Obligations.PairCodecRoundTrips := by
  refine ⟨fun v hv => ?_, fun lsb msb => ?_⟩
  · rw [dec7_enc7, BitVec.toNat_setWidth]
    exact Nat.mod_eq_of_lt (Nat.lt_succ_of_le hv)
  · rw [enc7_eq_halves, halves_dec7]
    rfl

/-- Settles O39: the payload decodes pair by pair. -/
theorem decodePayloadReadsPairs : Obligations.DecodePayloadReadsPairs := by
  intro ps s
  refine ⟨_, exec_decodePayload_of_some (decodePayload_pairs ps), List.length_map .., fun i p hp => ?_⟩
  exact ⟨dec7 p.1 p.2, by rw [List.getElem?_map, hp]; rfl, toNat_dec7 p.1 p.2⟩

/-- Settles O40: such a payload has no decoding. -/
theorem malformedPayloadIsRefused : Obligations.MalformedPayloadIsRefused := fun _ _ h =>
  exec_decodePayload_of_none (decodePayload_eq_none h)

end Sys2Proof.Machine
end

section
/-! SUPPORT. The buffer filled upward by an open frame (R95), and a whole frame byte by byte: its start, its bytes, its
end (R93, R99). With the encoder's frame it is the loopback (R132; O41). -/

namespace Sys2Proof.Machine

namespace Memory

/-- The buffer after an open frame has stored the bytes of a list from the index `i` on. -/
def storeUp : Memory → Nat → List Byte → Memory
  | m, _, [] => m
  | m, i, b :: bs => storeUp (m.write i b) (i + 1) bs

/-- The cells below the first index are not touched. -/
theorem read_storeUp_below {m : Memory} {i j : Nat} {bs : List Byte} (hj : j < i) :
    read (storeUp m i bs) j = read m j := by
  induction bs generalizing m i with
  | nil => rfl
  | cons b bs ih => rw [storeUp, ih (Nat.lt_succ_of_lt hj), read_write_other hj.ne]

theorem slice_cons (m : Memory) (lo n : Nat) :
    slice m lo (lo + (n + 1)) = read m lo :: slice m (lo + 1) (lo + 1 + n) := by
  simp [slice, List.range'_succ]

/-- The cells from the first index on hold the bytes in the order of arrival. -/
theorem slice_storeUp {m : Memory} {i : Nat} {bs : List Byte} (hm : m.wf = true)
    (hcap : i + bs.length ≤ Config.capacity) : slice (storeUp m i bs) i (i + bs.length) = bs := by
  induction bs generalizing m i with
  | nil => simp [slice]
  | cons b bs ih =>
    rw [List.length_cons] at hcap ⊢
    have hwf : (m.write i b).wf = true := wf_write (by omega) hm
    rw [slice_cons, storeUp, ih hwf (by omega), read_storeUp_below (Nat.lt_succ_self i), read_write_same hm]

end Memory

/-- A state whose open frame has stored the bytes `bs`, with the requests `rest` still pending. -/
def State.inOpenFrame (s : State) (bs : List Byte) (rest : List Request) : State :=
  { s with
    mode := .inSysex, remaining := 0, armed := 0x00#8, count := bs.length, buf := s.buf.storeUp 0 bs
    requests := rest }

/-- The state after the frame of the bytes `sub :: data` has been delivered to the handler `h`. -/
def State.afterFrame (s : State) (h : HandlerId) (sub : Byte) (data : List Byte) (rest : List Request) : State :=
  State.emit { s.inOpenFrame (sub :: data) rest with mode := .idle } (.sysexCallback h sub data.length data)

theorem framePayloadByte_of_isData {b : Byte} (h : isData b = true) : framePayloadByte b = true := by
  rw [framePayloadByte_iff]
  constructor <;> rintro rfl <;> exact absurd h (by decide)

theorem driverLoop_append (bs bs' : List Byte) : driverLoop (bs ++ bs') = driverLoop bs ++ driverLoop bs' :=
  List.map_append

/-- Two runs that complete, one from where the other ends, are one run. -/
theorem run_add {m n : Nat} {s u t : State} (h : run m s = .next u) (h' : run n u = .next t) :
    run (m + n) s = .next t := by
  induction m generalizing s with
  | zero => cases h; rwa [Nat.zero_add]
  | succ m ih =>
    obtain ⟨v, hstep, hrest⟩ := run_succ_next.1 h
    rw [Nat.succ_add]
    exact run_succ_next.2 ⟨v, hstep, ih hrest⟩

/-- One more step after a run that completes. -/
theorem run_succ_of_step {n : Nat} {s u t : State} (h : run n s = .next u) (hstep : step u = .next t) :
    run (n + 1) s = .next t :=
  run_add h (run_succ_next.2 ⟨t, hstep, rfl⟩)

section
variable {s : State} {b : Byte} {bs : List Byte} {rest : List Request}

/-! ### The bytes of a frame, one at a time -/

theorem step_startSysex (hs : s.Inv) (hp : commandPosition s.ctx 0xF0#8 = true)
    (hq : s.requests = .op (.rx 0xF0#8) :: rest) : step s = .next (s.inOpenFrame [] rest) :=
  (step_of_decode_ok hs hq (decodeByte_of_commandPosition hp)).trans (select_next.2 ⟨hp, rfl⟩)

theorem step_sxData (hs : s.Inv) (hm : s.mode = .inSysex) (hc : s.count < Config.capacity)
    (hb : framePayloadByte b = true) (hq : s.requests = .op (.rx b) :: rest) :
    step s = .next { s with buf := s.buf.write s.count b, count := s.count + 1, requests := rest } :=
  (step_of_decode_ok hs hq (decodeByte_sxData ((frameHasRoom_iff s).2 ⟨hm, hc⟩) hb)).trans
    (exec_sxData (s := { s with requests := rest }) hm hc hb)

theorem step_sxEnd {h : HandlerId} (hs : s.Inv) (hm : s.mode = .inSysex) (hc : 1 ≤ s.count)
    (hslot : s.slotSysex = some h) (hq : s.requests = .op (.rx 0xF7#8) :: rest) :
    step s = .next (State.emit { s with mode := .idle, requests := rest }
      (.sysexCallback h (s.cell 0) (s.count - 1) (s.buf.slice 1 s.count))) :=
  (step_of_decode_ok hs hq (decodeByte_sxEnd ((frameNotEmpty_iff s).2 ⟨hm, hc⟩))).trans
    (exec_sxEnd_delivered (s := { s with requests := rest }) hm hc (count_le_of_inv hs) hslot)

/-! ### A whole frame -/

/-- Bytes that fit an open frame are stored upward from `count` and emit nothing. -/
theorem run_sxData (hs : s.Inv) (hm : s.mode = .inSysex) (hcap : s.count + bs.length ≤ Config.capacity)
    (hbs : ∀ b ∈ bs, framePayloadByte b = true) (hq : s.requests = driverLoop bs ++ rest) :
    run bs.length s =
      .next { s with buf := s.buf.storeUp s.count bs, count := s.count + bs.length, requests := rest } := by
  induction bs generalizing s with
  | nil =>
    cases hq
    rfl
  | cons b bs ih =>
    rw [List.length_cons] at hcap ⊢
    obtain ⟨hb, hbs⟩ := List.forall_mem_cons.1 hbs
    have hstep := step_sxData hs hm (by omega) hb hq
    refine run_succ_next.2 ⟨_, hstep, (ih (step_inv hstep) hm ?_ hbs rfl).trans ?_⟩
    · rwa [Nat.add_assoc, Nat.add_comm 1]
    · rw [Nat.add_right_comm]
      rfl

/-- A start marker and the bytes after it, as far as the buffer has room, open a frame that holds them. -/
theorem run_openFrame (hs : s.Inv) (hp : commandPosition s.ctx 0xF0#8 = true) (hcap : bs.length ≤ Config.capacity)
    (hbs : ∀ b ∈ bs, framePayloadByte b = true) (hq : s.requests = driverLoop (0xF0#8 :: bs) ++ rest) :
    run (bs.length + 1) s = .next (s.inOpenFrame bs rest) := by
  have hstep := step_startSysex hs hp hq
  refine run_succ_next.2 ⟨_, hstep, (run_sxData (step_inv hstep) rfl ?_ hbs rfl).trans ?_⟩
  · exact (Nat.zero_add _).trans_le hcap
  · simp only [State.inOpenFrame, List.length_nil, Nat.zero_add]
    rfl

/-- The end marker delivers the frame that holds `sub :: data`. -/
theorem step_end_of_inOpenFrame {h : HandlerId} {sub : Byte} {data : List Byte} (hwf : s.buf.wf = true)
    (hslot : s.slotSysex = some h) (hs : (s.inOpenFrame (sub :: data) (.op (.rx 0xF7#8) :: rest)).Inv) :
    step (s.inOpenFrame (sub :: data) (.op (.rx 0xF7#8) :: rest)) = .next (s.afterFrame h sub data rest) := by
  have hcap : 1 + data.length ≤ Config.capacity := by
    rw [Nat.add_comm]
    exact count_le_of_inv hs
  have hcell : (s.buf.storeUp 0 (sub :: data)).read 0 = sub :=
    (Memory.read_storeUp_below Nat.one_pos).trans (Memory.read_write_same hwf)
  have hslice : (s.buf.storeUp 0 (sub :: data)).slice 1 (data.length + 1) = data := by
    rw [Nat.add_comm]
    exact Memory.slice_storeUp (Memory.wf_write (by decide) hwf) hcap
  refine (step_sxEnd hs rfl (Nat.succ_pos _) hslot rfl).trans ?_
  simp only [State.afterFrame, State.cell, State.inOpenFrame, List.length_cons, Nat.add_sub_cancel, hcell, hslice]

/-! ### The loopback -/

theorem writtenSince_transmit (a : State) (bs : List Byte) : Claims.writtenSince a (a.transmit bs) = bs := by
  have htx : (bs.map Event.txByte).filterMap Event.txByte? = bs := by
    rw [List.filterMap_map]
    exact List.filterMap_some
  simp only [Claims.writtenSince, State.tx, State.transmit_out, List.filterMap_append, htx, List.drop_left]

/-- Each byte between the markers of a sent frame is a data byte (R66). -/
theorem framePayloadByte_frame {cmd : Byte} (hcmd : isData cmd = true) (vals : List Word16) :
    ∀ b ∈ cmd :: encodeValues vals, framePayloadByte b = true :=
  List.forall_mem_cons.2 ⟨framePayloadByte_of_isData hcmd,
    fun b hb => framePayloadByte_of_isData (all_isData_encodeValues vals b hb)⟩

/-- The bytes of a sent frame as requests, the end marker split off. -/
theorem driverLoop_frameBytes (cmd : Byte) (vals : List Word16) (rest : List Request) :
    driverLoop (frameBytes cmd vals) ++ rest =
      driverLoop (0xF0#8 :: cmd :: encodeValues vals) ++ .op (.rx 0xF7#8) :: rest := by
  rw [show frameBytes cmd vals = (0xF0#8 :: cmd :: encodeValues vals) ++ [0xF7#8] from rfl, driverLoop_append,
    List.append_assoc]
  rfl

end

/-- Settles O41: the sender writes the encoder's frame; the receiver stores all of it but the markers, and the end
marker delivers it. The decoded values are the low 14 bits of those sent, so the bound on the values is not used. -/
theorem loopbackDeliversSentValues : Obligations.LoopbackDeliversSentValues := by
  intro cmd vals a a' s h rest hcmd hlen _ hsend hs hidle hslot hq
  have hdata : isData cmd = true := (isData_iff cmd).2 hcmd
  cases (exec_sendSysex hdata vals).symm.trans hsend
  rw [writtenSince_transmit, driverLoop_frameBytes] at hq
  have hp : commandPosition s.ctx 0xF0#8 = true := (commandPosition_iff s _).2 (.inl hidle)
  have hsize := length_encodeValues vals
  have hcap : (cmd :: encodeValues vals).length ≤ 32 := by
    rw [List.length_cons]
    omega
  have hopen := run_openFrame hs hp hcap (framePayloadByte_frame hdata vals) hq
  have hinv := run_keeps (fun _ _ _ => step_inv) hs hopen
  obtain ⟨-, -, -, hwf⟩ := hs
  have hend := step_end_of_inOpenFrame hwf hslot hinv
  have hsteps : (cmd :: encodeValues vals).length + 1 = 2 + 2 * vals.length := by
    rw [List.length_cons]
    omega
  rw [hsteps] at hopen
  refine ⟨⟨_, hopen, rfl⟩, s.afterFrame h cmd (encodeValues vals) rest, encodeValues vals, ?_, ?_,
    decodePayload_encodeValues vals, rfl, ?_, rfl⟩
  · rw [show 3 + 2 * vals.length = 2 + 2 * vals.length + 1 by omega]
    exact run_succ_of_step hopen hend
  · rw [← hsize]
    rfl
  · rw [← hsize, Nat.add_comm]
    rfl

end Sys2Proof.Machine
end

section
/-! SUPPORT. A slot update as a record update, and the four rows of the registry by the update they make, for either
category (O28, O29, O30). -/

namespace Sys2Proof.Machine

section
variable (s : State) (v : Option HandlerId) (cat : Category) (h : HandlerId)

/-! ### The slot update by its category -/

theorem setSlot_systemReset : s.setSlot .systemReset v = { s with slotReset := v } := rfl

theorem setSlot_sysex : s.setSlot .sysex v = { s with slotSysex := v } := rfl

/-! ### The rows -/

theorem exec_attach : exec (.attach cat h) s = .next (s.setSlot cat (some h)) := rfl

theorem exec_detach : exec (.detach cat) s = .next (s.setSlot cat none) := rfl

theorem exec_onSystemReset : exec (.onSystemReset h) s = exec (.attach .systemReset h) s := rfl

theorem exec_onSysex : exec (.onSysex h) s = exec (.attach .sysex h) s := rfl

end

/-- Settles O28: `ATTACH` fills the slot of its category, and the update of that slot is the stated record update. -/
theorem attachReplacesItsSlot : Obligations.AttachReplacesItsSlot := by
  intro h s
  constructor
  case left => rw [exec_attach, setSlot_systemReset]
  case right => rw [exec_attach, setSlot_sysex]

/-- Settles O29: `DETACH` empties the slot of its category, and the update of that slot is the stated record update. -/
theorem detachEmptiesItsSlot : Obligations.DetachEmptiesItsSlot := by
  intro s
  constructor
  case left => rw [exec_detach, setSlot_systemReset]
  case right => rw [exec_detach, setSlot_sysex]

/-- Settles O30: each pseudo-operation is `ATTACH` on its slot, so what it writes is what `ATTACH` writes (O28). -/
theorem onHandlersAreAttach : Obligations.OnHandlersAreAttach := by
  intro h s
  obtain ⟨hreset, hsysex⟩ := attachReplacesItsSlot h s
  exact ⟨(exec_onSystemReset s h).trans hreset, exec_onSystemReset s h,
    (exec_onSysex s h).trans hsysex, exec_onSysex s h⟩

end Sys2Proof.Machine
end

section
/-! SUPPORT. The reset procedure as the two rows without a condition run it, what each of the five resetting rows does to
the event stream, and the reset call against the byte `0xFF` (O25, O26, O27). -/

namespace Sys2Proof.Machine

section
variable {s t : State} {i : Instr} {h : HandlerId} {es : List Event} {rest : List Request}

/-! ### The rows -/

theorem exec_reset (s : State) : exec .reset s = .next s.doReset := rfl

theorem exec_doReset (s : State) : exec .doReset s = .next s.doReset := rfl

/-- A row that runs `do_reset` does nothing else, but that an overflowing byte reports the overflow first (R96, R152). -/
theorem next_of_runsReset (hi : Claims.RunsReset i) (he : exec i s = .next t) :
    t = s.doReset ∨ t = (s.emit .overflow).doReset := by
  have hselected {c : Bool} {u : State} (hsel : select c (.next u) = .next t) : t = u := by
    obtain ⟨-, hnext⟩ := select_next.1 hsel
    exact (Host.Outcome.next.inj hnext).symm
  obtain rfl | rfl | rfl | rfl | ⟨b, rfl⟩ := hi
  · exact .inl (hselected he)
  · exact .inl (hselected he)
  · exact .inl (Host.Outcome.next.inj he).symm
  · exact .inl (Host.Outcome.next.inj he).symm
  · exact .inr (hselected he)

/-- Everything but the event stream is already as a second reset would leave it (R152). -/
theorem doReset_doReset (s : State) :
    s.doReset.doReset = { s.doReset with out := s.doReset.out ++ resetEvents s.slotReset } := rfl

/-! ### The callback -/

/-- Among the events the reset callback of `h` occurs once, and that of no other handler occurs (R152). -/
def CallsBackOnce (h : HandlerId) (es : List Event) : Prop :=
  es.count (.resetCallback h) = 1 ∧ ∀ g, g ≠ h → es.count (.resetCallback g) = 0

theorem callsBackOnce_resetEvents (h : HandlerId) : CallsBackOnce h (resetEvents (some h)) := by
  refine ⟨List.count_singleton_self, fun g hg => List.count_eq_zero.2 fun hmem => hg ?_⟩
  exact Event.resetCallback.inj (List.mem_singleton.1 hmem)

theorem CallsBackOnce.cons_overflow (hes : CallsBackOnce h es) : CallsBackOnce h (.overflow :: es) := by
  obtain ⟨honce, hnone⟩ := hes
  have hcount (g : HandlerId) : (Event.overflow :: es).count (.resetCallback g) = es.count (.resetCallback g) :=
    List.count_cons_of_ne (by simp)
  exact ⟨(hcount h).trans honce, fun g hg => (hcount g).trans (hnone g hg)⟩

/-! ### Steps -/

/-- No context is asked for: the host's reset call is its own row in every mode (R151). -/
theorem step_reset (hs : s.Inv) (hq : s.requests = .op .reset :: rest) :
    step s = .next (State.doReset { s with requests := rest }) :=
  step_of_decode_ok hs hq rfl

/-- The byte `0xFF` resets in every mode (R91, R92, R100). -/
theorem step_rx_systemReset (hs : s.Inv) (hq : s.requests = .op (.rx 0xFF#8) :: rest) :
    step s = .next (State.doReset { s with requests := rest }) := by
  obtain ⟨t, hstep, hreceived⟩ := step_received hs hq
  rw [hstep, ← hreceived.processByte_eq, processByte_systemReset]

end

/-- Settles O25: `DO_RESET` is the procedure, which clears the buffer and leaves the slots. -/
theorem doResetClearsThenCallsBack : Obligations.DoResetClearsThenCallsBack := by
  intro s
  rw [← doReset_eq_afterReset]
  exact ⟨exec_doReset s, cell_doReset s, State.doReset_slotReset s, State.doReset_slotSysex s⟩

/-- Settles O26: within the invariants both steps run `do_reset`, and outside them both are refused; the invariants
do not read the requests. -/
theorem resetCallEqualsResetByte : Obligations.ResetCallEqualsResetByte := by
  refine ⟨fun s => doReset_eq_afterReset s ▸ exec_reset s, fun s rest => ?_⟩
  by_cases hs : s.Inv
  · have hcall : step { s with requests := .op .reset :: rest } = .next (State.doReset { s with requests := rest }) :=
      step_reset hs rfl
    have hbyte : step { s with requests := .op (.rx 0xFF#8) :: rest } =
        .next (State.doReset { s with requests := rest }) := step_rx_systemReset hs rfl
    rw [hcall, hbyte]
  · have hrefused (r : Request) : step { s with requests := r :: rest } = .refused .illFormedState :=
      step_of_not_inv hs
    rw [hrefused, hrefused]

/-- Settles O27: the events are those of `do_reset`, after the overflow if there is one; a reset of the state after
`do_reset` repeats them. -/
theorem oneCallbackPerResetEvent : Obligations.OneCallbackPerResetEvent := by
  constructor
  · intro i s t h hi hslot he
    have honce : CallsBackOnce h (resetEvents s.slotReset) := hslot ▸ callsBackOnce_resetEvents h
    obtain rfl | rfl := next_of_runsReset hi he
    · exact ⟨_, State.doReset_out s, honce⟩
    · exact ⟨_, List.append_assoc .., honce.cons_overflow⟩
  · intro s t h hslot he
    cases (exec_reset s).symm.trans he
    rw [exec_reset, doReset_doReset, hslot, resetEvents_some]

end Sys2Proof.Machine
end

section
/-! SUPPORT. The frame that is never ended (R161): as many bytes as the buffer holds, the byte that overflows it, and
the bytes after the reset, which the core configuration ignores (O16). The overflow is the only effect of a byte with
two events (O43). -/

namespace Sys2Proof.Machine

section
variable {s t : State} {b : Byte} {bs later : List Byte} {rest : List Request}

/-! ### One byte -/

theorem armingByte_of_isData (h : isData b = true) : armingByte b = true := by
  rw [armingByte_iff]
  constructor <;> rintro rfl <;> exact absurd h (by decide)

/-- The byte that finds the buffer full is dropped; the overflow is reported and the reset runs (R96). -/
theorem step_sxDataOvf (hs : s.Inv) (hm : s.mode = .inSysex) (hfull : s.count = Config.capacity)
    (hb : framePayloadByte b = true) (hq : s.requests = .op (.rx b) :: rest) :
    step s = .next (Claims.afterReset { s with requests := rest, out := s.out ++ [.overflow] }) := by
  obtain ⟨hend, hreset⟩ := (framePayloadByte_iff b).1 hb
  have hdec : decode s.ctx (.op (.rx b)) = .ok (.sxDataOvf b) :=
    decodeByte_sxDataOvf ((frameFull_iff s).2 ⟨hm, hfull⟩) hb
  exact (step_of_decode_ok hs hq hdec).trans
    (fullFrameOverflowsThenResets { s with requests := rest } b hm hfull hend hreset)

/-- In Idle, where no command arms, a byte that is not recognised is only taken off the requests (R101, R102). -/
theorem step_ignored (hs : s.Inv) (hidle : s.mode = .idle) (hcore : Claims.IsCore s) (hb : armingByte b = true)
    (hq : s.requests = .op (.rx b) :: rest) : step s = .next { s with requests := rest } := by
  obtain ⟨hstart, hreset⟩ := (armingByte_iff b).1 hb
  have hlen : ¬ 0 < armedLength s.mbLen b := (hcore _).not_gt
  have hp : commandPosition s.ctx b = true := (commandPosition_iff s b).2 (.inl hidle)
  rw [receivedByteRunsProcessByte s b rest hs hq,
    processByte_of_commandPosition (s := { s with requests := rest }) hp,
    if_neg hstart, if_neg hreset, if_neg hlen]

/-! ### Runs of bytes -/

/-- In Idle, where no command arms, bytes that are not recognised have no effect. -/
theorem run_ignored (hs : s.Inv) (hidle : s.mode = .idle) (hcore : Claims.IsCore s)
    (hbs : ∀ b ∈ bs, armingByte b = true) (hq : s.requests = driverLoop bs ++ rest) :
    run bs.length s = .next { s with requests := rest } := by
  induction bs generalizing s with
  | nil =>
    cases hq
    rfl
  | cons b bs ih =>
    obtain ⟨hb, hbs⟩ := List.forall_mem_cons.1 hbs
    have hstep := step_ignored hs hidle hcore hb hq
    exact run_succ_next.2 ⟨_, hstep, ih (step_inv hstep) hidle hcore hbs rfl⟩

/-- A frame that fills the buffer, the byte `b` that overflows it, and the bytes that are ignored after the reset. -/
theorem run_overflowingFrame (hs : s.Inv) (hidle : s.mode = .idle) (hcore : Claims.IsCore s)
    (hfull : bs.length = Config.capacity) (hbs : ∀ x ∈ bs, framePayloadByte x = true)
    (hb : framePayloadByte b = true) (hlater : ∀ x ∈ later, armingByte x = true)
    (hq : s.requests = driverLoop (0xF0#8 :: bs) ++ .op (.rx b) :: (driverLoop later ++ rest)) :
    run (bs.length + 1 + 1 + later.length) s =
      .next (Claims.afterReset { s with requests := rest, out := s.out ++ [.overflow] }) := by
  have hp : commandPosition s.ctx 0xF0#8 = true := (commandPosition_iff s _).2 (.inl hidle)
  have hopen := run_openFrame hs hp hfull.le hbs hq
  have hinv := run_keeps (fun _ _ _ => step_inv) hs hopen
  have hoverflow := step_sxDataOvf hinv rfl hfull hb rfl
  exact run_add (run_succ_of_step hopen hoverflow) (run_ignored (step_inv hoverflow) rfl hcore hlater rfl)

/-- Pending bytes around the one at an index: those before it, the byte itself, those after it. -/
theorem driverLoop_split_at {n : Nat} (hn : n < bs.length) :
    driverLoop (b :: bs) ++ rest =
      driverLoop (b :: bs.take n) ++ .op (.rx bs[n]) :: (driverLoop (bs.drop (n + 1)) ++ rest) := by
  have hsplit : b :: bs = (b :: bs.take n) ++ bs[n] :: bs.drop (n + 1) := by
    rw [← List.drop_eq_getElem_cons hn, List.cons_append, List.take_append_drop]
  rw [hsplit, driverLoop_append, List.append_assoc]
  rfl

/-! ### The events of a byte -/

/-- At most one event, unless the byte overflows an open frame (R168). -/
theorem Received.events_le_one_or_overflow (h : Received s b t) :
    (∃ es, t.out = s.out ++ es ∧ es.length ≤ 1) ∨
      (s.mode = .inSysex ∧ s.count = Config.capacity ∧ framePayloadByte b = true ∧
        t.out = s.out ++ .overflow :: resetEvents s.slotReset) := by
  cases h with
  | overflow _ hm hc hb => exact .inr ⟨hm, hc, hb, List.append_assoc ..⟩
  | reset => exact .inl ⟨_, rfl, by cases s.slotReset <;> simp⟩
  | endDelivered | endEmpty | completed => exact .inl ⟨_, rfl, Nat.le_refl _⟩
  | endSilent | stored | awaited | opened | armed | ignored => exact .inl ⟨[], by simp⟩

/-- Of `do_reset`'s events there is one at most, the callback of the handler in the slot (R150). -/
theorem resetEvents_eq_cons {slot : Option HandlerId} {e : Event} {es : List Event}
    (h : resetEvents slot = e :: es) : es = [] ∧ ∃ g, slot = some g ∧ e = .resetCallback g := by
  cases slot with
  | none => cases h
  | some g =>
    cases h
    exact ⟨rfl, g, rfl, rfl⟩

end

/-- Settles O16: the first 32 bytes fill the frame, the next one overflows it, and the core configuration ignores the
others in the Idle state after the reset. -/
theorem unterminatedFrameOverflowsOnce : Obligations.UnterminatedFrameOverflowsOnce := by
  intro s ds rest hs hidle hcore hlong hq
  have hdata : ∀ b ∈ ds.map dataByte, isData b = true := by simp
  have hbytes : (ds.map dataByte).length = ds.length := List.length_map ..
  generalize ds.map dataByte = bs at hq hdata hbytes
  have hn : 32 < bs.length := by omega
  have hfull : (bs.take 32).length = 32 := List.length_take_of_le hn.le
  rw [driverLoop_split_at hn] at hq
  have hrun := run_overflowingFrame hs hidle hcore hfull
    (fun b hb => framePayloadByte_of_isData (hdata b (List.mem_of_mem_take hb)))
    (framePayloadByte_of_isData (hdata _ (List.getElem_mem hn)))
    (fun b hb => armingByte_of_isData (hdata b (List.mem_of_mem_drop hb))) hq
  have hsteps : (bs.take 32).length + 1 + 1 + (bs.drop (32 + 1)).length = 1 + ds.length := by
    rw [hfull, List.length_drop]
    omega
  rwa [hsteps] at hrun

/-- Settles O43: the byte has one of its effects, and only the overflow has room for two events. -/
theorem overflowComesBeforeResetCallback : Obligations.OverflowComesBeforeResetCallback := by
  intro s t b rest e1 e2 es hq hstep hout
  obtain ⟨hs, -⟩ := step_next.1 hstep
  obtain ⟨t', hstep', hreceived⟩ := step_received hs hq
  cases hstep.symm.trans hstep'
  obtain ⟨fs, hfs, hlen⟩ | ⟨hm, hfull, hb, hfs⟩ := hreceived.events_le_one_or_overflow
  · cases List.append_cancel_left (hfs.symm.trans hout)
    simp at hlen
  · obtain ⟨hend, hreset⟩ := (framePayloadByte_iff b).1 hb
    obtain ⟨hfirst, hothers⟩ := List.cons.inj (List.append_cancel_left (hfs.symm.trans hout))
    obtain ⟨hnil, hcallback⟩ := resetEvents_eq_cons hothers
    exact ⟨hm, hfull, hend, hreset, hfirst.symm, hnil, hcallback⟩

end Sys2Proof.Machine
end

section
/-! SUPPORT. Construction (R190): the registers of Table 10-B, and the cells that the empty list reads as (O1). -/

namespace Sys2Proof.Machine

/-- Every cell is zero after construction (R190). -/
@[simp] theorem cell_constructed (cfg : Config.MbTable) (i : Nat) : (State.constructed cfg).cell i = 0x00#8 :=
  Memory.read_nil i

/-- Settles O1: the registers, the slots and the event stream are the fields construction writes; the cells are read
from a list that holds none. -/
theorem constructedStateIsAllClear : Obligations.ConstructedStateIsAllClear := by
  intro cfg
  have hcells : ∀ i, i < 32 → (State.constructed cfg).cell i = 0x00#8 := fun i _ => cell_constructed cfg i
  exact ⟨rfl, rfl, rfl, rfl, hcells, rfl, rfl, rfl⟩

end Sys2Proof.Machine
end
